-- ==== Sys2Proof/Word.lean ====
section
/-! DEFINITION. The widths of spec/00_scope.md R10 and R11: bytes, 16-bit and 32-bit operands, levels, packets. -/

namespace Sys2Proof

/-- A byte: 8 bits, bit 0 the least significant (R10). -/
abbrev Byte := BitVec 8

/-- A 16-bit operand: an address, or an imm16 (R81). -/
abbrev Half := BitVec 16

/-- A 32-bit operand: an imm32 (R81). -/
abbrev Word := BitVec 32

/-- A level: 0 (low, `false`) or 1 (high, `true`) (R10). -/
abbrev Level := Bool

/-- The name of a GPIO line; a name, not an address (R51). -/
abbrev LineId := Nat

/-- A string of bytes on the command port or the response port (R80). -/
abbrev Packet := List Byte

end Sys2Proof
end

