-- ==== Sys2Proof/Machine/Sparse.lean ====
section
/-! DEFINITION. A sparse map from natural keys in one canonical form: keys strictly rising, and no entry equal to what
an unlisted key reads as. The cell space and the line space are held so, so that equal contents are equal data. -/

namespace Sys2Proof.Sparse

variable {α : Type}

/-- The value at a key; an unlisted key reads as the default there. -/
def get (dflt : Nat → α) : List (Nat × α) → Nat → α
  | [], k => dflt k
  | (k', v) :: m, k => if k = k' then v else get dflt m k

/-- Put a value at a key, keeping the canonical form: writing the default removes the entry. -/
def set [DecidableEq α] (dflt : Nat → α) : List (Nat × α) → Nat → α → List (Nat × α)
  | [], k, v => if v = dflt k then [] else [(k, v)]
  | (k', v') :: m, k, v =>
    if k < k' then (if v = dflt k then (k', v') :: m else (k, v) :: (k', v') :: m)
    else if k = k' then (if v = dflt k then m else (k, v) :: m)
    else (k', v') :: set dflt m k v

/-- Put the values of a list, one after another. -/
def setAll [DecidableEq α] (dflt : Nat → α) (m ps : List (Nat × α)) : List (Nat × α) :=
  ps.foldl (fun m p => set dflt m p.1 p.2) m

/-- The canonical form. -/
abbrev wf (dflt : Nat → α) (m : List (Nat × α)) : Prop :=
  m.Pairwise (fun p q => p.1 < q.1) ∧ ∀ p ∈ m, p.2 ≠ dflt p.1

end Sys2Proof.Sparse
end

