-- ==== Sys2Proof/Config.lean ====
section
/-! DEFINITION. The configuration record of spec/00_scope.md R7, the reference instance RI of R9, and the one free
value the model has (the outputs of a device wired to no latch line). -/

namespace Sys2Proof

/-- The initial frame INIT, an H×W array of bytes in row-major order (R7, R31). It is written sparsely: the cell of
row r and column c has index r·W + c, and a cell not listed holds `fill`. -/
structure Frame where
  fill  : Byte
  cells : List Host.Cell
  deriving DecidableEq, Repr, Inhabited

/-- A stand-alone chain (R7): `n` bytes, its lines, the level at which its clear line is active, and the control
group whose lines it shares, if any. -/
structure Chain where
  n      : Nat
  ser    : LineId
  clk    : LineId
  latch  : Option LineId
  clear  : Option LineId
  clrAct : Level
  grp    : Option Nat
  deriving DecidableEq, Repr, Inhabited

/-- A control group (R7, R18): a mandatory shift clock, an optional latch and an optional clear line. -/
structure ControlGroup where
  clk    : LineId
  latch  : Option LineId
  clear  : Option LineId
  clrAct : Level
  deriving DecidableEq, Repr, Inhabited

/-- A parallel bank (R7, R160): lanes of `n` bytes each, one serial line a lane (LANES is their number), and the
control group that supplies the shared lines. -/
structure Bank where
  n     : Nat
  ser   : List LineId
  group : Nat
  deriving DecidableEq, Repr, Inhabited

/-- A bus reader or writer (R7, R170): the ordered lines, line i carrying the bit of weight 2^i. Its width N is their
number. -/
structure Bus where
  line : List LineId
  deriving DecidableEq, Repr, Inhabited

/-- The configuration of an instance (R7): an input of reset, constant afterwards (R260). -/
structure Config where
  w       : Nat
  h       : Nat
  init    : Frame
  pxbKmin : Byte
  pxbKmax : Byte
  chains  : List Chain
  groups  : List ControlGroup
  banks   : List Bank
  readers : List Bus
  writers : List Bus
  scanH   : Bus
  scanV   : Bus
  scanC   : Bus
  pxsBank : Option Nat
  pxsRmin : Half
  pxsRmax : Half
  pxsCmin : Half
  pxsCmax : Half
  pxsKmin : Byte
  pxsKmax : Byte
  deriving DecidableEq, Repr, Inhabited

/-- The SIPO devices (R35): one per chain, and one per lane of each bank. -/
inductive DevId where
  | chain (u : Nat)
  | lane (k l : Nat)
  deriving DecidableEq, Repr, Inhabited

/-- The reference instance RI (R9). DESIGN CHOICE (log 1): State.reset uses it; every claim is over any Config. -/
def Config.ri : Config where
  w := 201
  h := 151
  init := { fill := 0, cells := [] }
  pxbKmin := 0
  pxbKmax := 255
  chains := [{ n := 2, ser := 0, clk := 1, latch := some 2, clear := some 3, clrAct := false, grp := none }]
  groups := [{ clk := 4, latch := some 5, clear := some 6, clrAct := false }]
  banks := [{ n := 2, ser := [7, 8, 9], group := 0 }]
  readers := [{ line := [10, 11, 12, 13, 14, 15, 16, 17] }]
  writers := [{ line := [10, 11, 12, 13, 14, 15, 16, 17] }]
  scanH := { line := [20, 21, 22, 23, 24, 25, 26, 27] }
  scanV := { line := [28, 29, 30, 31, 32, 33, 34, 35] }
  scanC := { line := [40, 41, 42, 43, 44, 45, 46, 47] }
  pxsBank := some 0
  pxsRmin := 0
  pxsRmax := 150
  pxsCmin := 0
  pxsCmax := 200
  pxsKmin := 0
  pxsKmax := 255

/-- FREE VALUE (log 9): what the output pins of a device wired to no latch line show at a given moment. The spec says
only that nothing may be asserted of it (R36, R279, U4), so it has no body. -/
opaque Config.tiedOut : Nat → DevId → Nat

end Sys2Proof
end

