-- ==== Sys2Proof/Syntax.lean ====
section
/-! DEFINITION. The commands of spec/30_encoding.md R85, one constructor a row of spec/opcode_table.json, with the
operand kinds of R81; the fault causes of R231 and the diagnostic kinds of R26. -/

namespace Sys2Proof

/-- A command (R85). `unit` is the index of a component instance; `data` is a byte array in array order (R82). -/
inductive Instr where
  | dbAopen
  | dbArd (row col : Half)
  | dbAclose
  | dbIopen
  | dbIrd (row col : Half)
  | dbIwr (row col : Half) (val : Byte)
  | dbIclose
  | dbSwap
  | srShiftb (unit imm8 : Byte)
  | srShiftx (unit : Byte) (data : List Byte)
  | srLatch (unit : Byte)
  | srClear (unit : Byte)
  | srWritex (unit : Byte) (data : List Byte)
  | cgLatchall (unit : Byte)
  | cgClearall (unit : Byte)
  | pbShiftl (unit : Byte) (data : List Byte)
  | pbWritex (unit : Byte) (data : List Byte)
  | brRdbits (unit : Byte)
  | brRd8 (unit : Byte)
  | brRd16 (unit : Byte)
  | brRd32 (unit : Byte)
  | bwWrbits (unit : Byte) (data : List Byte)
  | bwWr8 (unit imm8 : Byte)
  | bwWr16 (unit : Byte) (imm16 : Half)
  | bwWr32 (unit : Byte) (imm32 : Word)
  | pxsWrite (h v : Half) (color : Byte)
  | pxsArange
  | pxsCrange
  | pxbWrite (h v : Half) (color : Byte)
  | pxbArange
  | pxbCrange
  | pxbPresent
  | sysRdreg (reg : Byte)
  deriving DecidableEq, Repr

/-- The fault causes (R231); code 0 is no fault and codes 7 to 15 are never produced. -/
inductive Cause where
  | width8
  | width16
  | illegalCommand
  | badUnit
  | protocol
  | index
  deriving DecidableEq, Repr

/-- The diagnostics (R26, R236). -/
inductive DiagKind where
  | noLatch
  | noClear
  | oor
  deriving DecidableEq, Repr

end Sys2Proof
end

