-- ==== Sys2Proof/Machine/Topology.lean ====
section
/-! DEFINITION. What a Config says about an instance: the components and their lines, the wiring of the SIPO devices
(spec/41_shift_register.md R130), the cell map (spec/20_memory.md R50), the well-formedness checks of
spec/00_scope.md R8, and the reset levels of the lines (spec/10_state.md R33). -/

namespace Sys2Proof

/-- The width N of a bus (R170). -/
abbrev Bus.n (b : Bus) : Nat := b.line.length

/-- The number of lanes LANES of a bank (R160). -/
abbrev Bank.lanes (b : Bank) : Nat := b.ser.length

namespace Config

def chainAt (cfg : Config) (unit : Byte) : Chain := cfg.chains.getD unit.toNat default
def groupAt (cfg : Config) (g : Nat) : ControlGroup := cfg.groups.getD g default
def bankAt (cfg : Config) (k : Nat) : Bank := cfg.banks.getD k default
def readerAt (cfg : Config) (unit : Byte) : Bus := cfg.readers.getD unit.toNat default
def writerAt (cfg : Config) (unit : Byte) : Bus := cfg.writers.getD unit.toNat default

/-! ### The cell map -/

/-- CellAddr(b, r, c) = b·H·W + r·W + c (R12, R50); buffer 0 is `false`. -/
def cellAddr (cfg : Config) (b : Bool) (r c : Nat) : Nat := b.toNat * (cfg.h * cfg.w) + r * cfg.w + c

/-- The number of cells, 2·H·W (R50). -/
def cellCount (cfg : Config) : Nat := 2 * (cfg.h * cfg.w)

/-- What a cell reads as that no command has written since reset: INIT, in both buffers (R31, R111). -/
def initCell (cfg : Config) (a : Nat) : Byte :=
  Sparse.get (fun _ => cfg.init.fill) cfg.init.cells (a % (cfg.h * cfg.w))

/-- row < H and col < W (R113). -/
def inGrid (cfg : Config) (row col : Nat) : Bool := decide (row < cfg.h) && decide (col < cfg.w)

end Config

/-! ### The wiring of the devices -/

/-- What one SIPO device is wired to (R130): its width in bytes, its serial and clock lines, its latch line if any, and
its clear line with the level at which that is active, if any. -/
structure Wiring where
  n     : Nat
  ser   : LineId
  clk   : LineId
  latch : Option LineId
  clear : Option (LineId × Level)
  deriving DecidableEq, Repr

/-- A group's clear line with its active level. -/
def ControlGroup.clearLine (g : ControlGroup) : Option (LineId × Level) := g.clear.map fun L => (L, g.clrAct)

/-- The clear line a chain owns, with its active level. -/
def Chain.clearLine (c : Chain) : Option (LineId × Level) := c.clear.map fun L => (L, c.clrAct)

/-- The device of a chain: a latch or clear line the chain does not own is its group's, if it names one (R130). -/
def Chain.wiring (cfg : Config) (c : Chain) : Wiring :=
  let g := c.grp.bind fun g => cfg.groups[g]?
  { n := c.n, ser := c.ser, clk := c.clk,
    latch := match c.latch with
      | some L => some L
      | none => g.bind fun g => g.latch,
    clear := match c.clearLine with
      | some p => some p
      | none => g.bind fun g => g.clearLine }

/-- The device of one lane: its own serial line, the group's other lines (R130, R160). -/
def Bank.laneWiring (cfg : Config) (b : Bank) (ser : LineId) : Wiring :=
  let g := cfg.groupAt b.group
  { n := b.n, ser := ser, clk := g.clk, latch := g.latch, clear := g.clearLine }

namespace Config

/-- The wiring of a device (R130); none for an id that names no device. -/
def wiring (cfg : Config) : DevId → Option Wiring
  | .chain u => (cfg.chains[u]?).map (Chain.wiring cfg)
  | .lane k l => (cfg.banks[k]?).bind fun b => (b.ser[l]?).map (b.laneWiring cfg)

/-- Every device, chains by index, then lanes by bank and lane index (R16, R35). -/
def devIds (cfg : Config) : List DevId :=
  (List.range cfg.chains.length).map DevId.chain ++
  (List.range cfg.banks.length).flatMap fun k => (List.range (cfg.bankAt k).lanes).map (DevId.lane k)

/-! ### The lines by role -/

def serLines (cfg : Config) : List LineId := cfg.chains.map Chain.ser ++ cfg.banks.flatMap Bank.ser

/-- The shift clocks: of the chains that share no group's, and of the groups (R8, WF_OWN iii). -/
def clkLines (cfg : Config) : List LineId :=
  (cfg.chains.filter fun c => c.grp.isNone).map Chain.clk ++ cfg.groups.map ControlGroup.clk

def latchLines (cfg : Config) : List LineId :=
  cfg.chains.filterMap Chain.latch ++ cfg.groups.filterMap ControlGroup.latch

/-- The clear lines, each with the level at which it is active. -/
def clearLines (cfg : Config) : List (LineId × Level) :=
  cfg.chains.filterMap Chain.clearLine ++ cfg.groups.filterMap ControlGroup.clearLine

def writerLines (cfg : Config) : List LineId := cfg.writers.flatMap Bus.line
def readerLines (cfg : Config) : List LineId := cfg.readers.flatMap Bus.line

/-- The lines that carry data: serial, bus-writer and colour lines; their reset levels are unspecified (R33). -/
def dataLines (cfg : Config) : List LineId := cfg.serLines ++ cfg.writerLines ++ cfg.scanC.line

/-- The lines that time the devices: clocks, latches and clears. -/
def controlLines (cfg : Config) : List LineId := cfg.clkLines ++ cfg.latchLines ++ cfg.clearLines.map Prod.fst

/-- The output lines: those the block drives (R33). -/
def outputLines (cfg : Config) : List LineId := cfg.dataLines ++ cfg.controlLines

/-- The input lines: those a reader names and the block does not drive (R34, WF_OWN vi). -/
def inputLines (cfg : Config) : List LineId :=
  (cfg.readerLines ++ cfg.scanH.line ++ cfg.scanV.line).filter fun id => !cfg.outputLines.contains id

/-! ### Well-formedness (R7, R8) -/

/-- The ranges of R7's table. -/
abbrev WfDomains (cfg : Config) : Prop :=
  1 ≤ cfg.w ∧ cfg.w ≤ 65536 ∧ 1 ≤ cfg.h ∧ cfg.h ≤ 65536 ∧ cfg.pxbKmin ≤ cfg.pxbKmax ∧
  cfg.pxsRmin ≤ cfg.pxsRmax ∧ cfg.pxsCmin ≤ cfg.pxsCmax ∧ cfg.pxsKmin ≤ cfg.pxsKmax ∧
  (∀ b ∈ cfg.banks, b.group < cfg.groups.length)

/-- WF_N, and the other sizes R7 requires to be at least 1. -/
abbrev WfN (cfg : Config) : Prop :=
  (∀ c ∈ cfg.chains, 1 ≤ c.n) ∧ (∀ b ∈ cfg.banks, 1 ≤ b.n ∧ 1 ≤ b.lanes) ∧
  (∀ b ∈ cfg.readers ++ cfg.writers ++ [cfg.scanH, cfg.scanV, cfg.scanC], 1 ≤ b.n)

/-- WF_SCANW. -/
abbrev WfScanw (cfg : Config) : Prop := cfg.scanH.n ≤ 16 ∧ cfg.scanV.n ≤ 16 ∧ cfg.scanC.n ≤ 8

/-- WF_PXS: the pixel writer's bank exists, has three lanes, and is wide enough for every maximum. -/
abbrev WfPxs (cfg : Config) : Prop :=
  ∀ k ∈ cfg.pxsBank.toList, k < cfg.banks.length ∧ (cfg.bankAt k).lanes = 3 ∧
    cfg.pxsRmax.toNat < 2 ^ (8 * (cfg.bankAt k).n) ∧ cfg.pxsCmax.toNat < 2 ^ (8 * (cfg.bankAt k).n) ∧
    cfg.pxsKmax.toNat < 2 ^ (8 * (cfg.bankAt k).n)

/-- WF_OWN (i) to (vii) together. Clause by clause: every line the block drives has one place, with `clkLines` leaving
out the clocks a chain takes from its group (i, ii, iii, v, vii; within one writer, log 13); a line of an address bus is
driven by no one and is on one address bus only (iv), though that bus may name it twice; a line is named by one reader
only (v), though that reader may name it twice; a reader's line is a writer's or is none that the block drives or the scan
engine samples (i to iv, vi); a chain that names a group has that group's clock (iii). -/
abbrev WfOwn (cfg : Config) : Prop :=
  cfg.outputLines.Nodup ∧
  (∀ id ∈ cfg.scanH.line ++ cfg.scanV.line, id ∉ cfg.outputLines) ∧ (∀ id ∈ cfg.scanH.line, id ∉ cfg.scanV.line) ∧
  cfg.readers.Pairwise (fun a b => ∀ id ∈ a.line, id ∉ b.line) ∧
  (∀ id ∈ cfg.readerLines,
    id ∉ cfg.serLines ++ cfg.controlLines ++ cfg.scanC.line ++ cfg.scanH.line ++ cfg.scanV.line) ∧
  (∀ c ∈ cfg.chains, ∀ g ∈ c.grp.toList, (cfg.groups[g]?).map ControlGroup.clk = some c.clk)

/-- A configuration is well-formed (R8); one that is not is no instance of this hardware. -/
abbrev WF (cfg : Config) : Prop := cfg.WfDomains ∧ cfg.WfN ∧ cfg.WfScanw ∧ cfg.WfPxs ∧ cfg.WfOwn

/-! ### Reset levels of the lines (R33, R261) -/

/-- The default level of an unlisted line. -/
abbrev low : Nat → Level := fun _ => false

/-- The line space right after reset: clocks and latches 0, clears inactive, data lines as drawn. -/
def resetLines (cfg : Config) (drawn : List (LineId × Level)) : List (LineId × Level) :=
  Sparse.setAll low [] (cfg.dataLines.map (fun id => (id, Sparse.get low drawn id)) ++
    cfg.clearLines.map fun p => (p.1, !p.2))

end Config

end Sys2Proof
end

