-- ==== Sys2Proof/Machine/Operands.lean ====
section
/-! DEFINITION. The operand forms: which units are legal (spec/30_encoding.md R86), the length of the data of a FUV
packet (R84), the checks of R88 (2) to (4) on a command's operands, frames and the order of their bits on a serial
lane (spec/20_memory.md R54), fields in frames (R97), and the packings of buses and responses (R82, R93, R99, R100). -/

namespace Sys2Proof

/-! ### Numbers as bytes -/

/-- The n bytes of a number, least significant first (R82). -/
def bytesLE (n v : Nat) : List Byte := (List.range n).map fun i => BitVec.ofNat 8 (v / 256 ^ i)

/-- The number whose bytes, least significant first, are given (R82). -/
def natLE : List Byte → Nat
  | [] => 0
  | b :: bs => b.toNat + 256 * natLE bs

/-- ceil(n / 8): the bytes that hold n bits (R100). -/
def byteCount (n : Nat) : Nat := (n + 7) / 8

/-! ### Frames on a serial lane -/

/-- TxBit(frame, i) = frame[i div 8][7 − (i mod 8)]: the bit sent at tick i (R54). -/
def txBit (frame : List Byte) (i : Nat) : Level := (frame.getD (i / 8) 0).getLsbD (7 - i % 8)

/-- A frame as one number, read big-endian: Σ_j frame[j]·2^(8·(N−1−j)) (R135). -/
def frameValue (frame : List Byte) : Nat := frame.foldl (fun acc b => acc * 256 + b.toNat) 0

/-- Field(x, N): the frame of N bytes that holds x big-endian (R97). -/
def field (x n : Nat) : List Byte := (bytesLE n x).reverse

/-- frames[l][j] = data[l·N + j]: the frame of each lane (R84). -/
def laneFrames (lanes n : Nat) (data : List Byte) : List (List Byte) :=
  (List.range lanes).map fun l => (data.drop (l * n)).take n

/-! ### Bits on a bus -/

/-- Pack(a, n) = Σ_{i<n} a[i]·2^i, index 0 the least significant bit (R172). -/
def pack : List Level → Nat
  | [] => 0
  | b :: bs => b.toNat + 2 * pack bs

/-- The first n bits of a number, index 0 = LSB (R172). -/
def unpack (n v : Nat) : List Level := (List.range n).map fun i => v.testBit i

/-- A Boolean array as ceil(N/8) bytes, index i in bit i mod 8 of byte i div 8, unused bits 0 (R100). -/
def packBytes (bits : List Level) : List Byte := bytesLE (byteCount bits.length) (pack bits)

/-- bits[i] = data[i div 8][i mod 8] for i < n (R178). -/
def unpackBytes (n : Nat) (data : List Byte) : List Level :=
  (List.range n).map fun i => (data.getD (i / 8) 0).getLsbD (i % 8)

/-! ### Which operands are legal -/

/-- The first failing check of a list, in order (R88, R241). -/
def firstFault : List (Option Cause) → Option Cause
  | [] => none
  | some c :: _ => some c
  | none :: cs => firstFault cs

/-- A check: the cause if the condition does not hold. -/
def require (ok : Bool) (c : Cause) : Option Cause := if ok then none else some c

/-- A unit is legal when it is below the count of its kind (R86), else BAD_UNIT. -/
def unitCheck (unit : Byte) (count : Nat) : Option Cause := require (decide (unit.toNat < count)) .badUnit

/-- The length of the data is the one the unit requires (R84), else ILLEGAL_COMMAND. -/
def lengthCheck (data : List Byte) (len : Nat) : Option Cause := require (decide (data.length = len)) .illegalCommand

namespace Config

/-- L of SR.SHIFTX and SR.WRITEX: chain[unit].N (R84). -/
def chainLen (cfg : Config) (unit : Byte) : Nat := (cfg.chainAt unit).n

/-- L of PB.SHIFTL and PB.WRITEX: LANES·N (R84). -/
def bankLen (cfg : Config) (unit : Byte) : Nat := (cfg.bankAt unit.toNat).lanes * (cfg.bankAt unit.toNat).n

/-- L of BW.WRBITS: ceil(writer[unit].N / 8) (R84). -/
def writerLen (cfg : Config) (unit : Byte) : Nat := byteCount (cfg.writerAt unit).n

end Config

/-- The checks of R88 (2) to (4) on a command's operands, in that order: the unit, the length of the data, the register
number. The decoder has made them already; a command that comes by another way is checked here (log 23). -/
def Instr.operandFault (cfg : Config) : Instr → Option Cause
  | .dbAopen => none
  | .dbArd _ _ => none
  | .dbAclose => none
  | .dbIopen => none
  | .dbIrd _ _ => none
  | .dbIwr _ _ _ => none
  | .dbIclose => none
  | .dbSwap => none
  | .srShiftb u _ => unitCheck u cfg.chains.length
  | .srShiftx u data => firstFault [unitCheck u cfg.chains.length, lengthCheck data (cfg.chainLen u)]
  | .srLatch u => unitCheck u cfg.chains.length
  | .srClear u => unitCheck u cfg.chains.length
  | .srWritex u data => firstFault [unitCheck u cfg.chains.length, lengthCheck data (cfg.chainLen u)]
  | .cgLatchall u => unitCheck u cfg.groups.length
  | .cgClearall u => unitCheck u cfg.groups.length
  | .pbShiftl u data => firstFault [unitCheck u cfg.banks.length, lengthCheck data (cfg.bankLen u)]
  | .pbWritex u data => firstFault [unitCheck u cfg.banks.length, lengthCheck data (cfg.bankLen u)]
  | .brRdbits u => unitCheck u cfg.readers.length
  | .brRd8 u => unitCheck u cfg.readers.length
  | .brRd16 u => unitCheck u cfg.readers.length
  | .brRd32 u => unitCheck u cfg.readers.length
  | .bwWrbits u data => firstFault [unitCheck u cfg.writers.length, lengthCheck data (cfg.writerLen u)]
  | .bwWr8 u _ => unitCheck u cfg.writers.length
  | .bwWr16 u _ => unitCheck u cfg.writers.length
  | .bwWr32 u _ => unitCheck u cfg.writers.length
  | .pxsWrite _ _ _ => none
  | .pxsArange => none
  | .pxsCrange => none
  | .pxbWrite _ _ _ => none
  | .pxbArange => none
  | .pxbCrange => none
  | .pxbPresent => none
  | .sysRdreg reg => require (decide (reg.toNat ≤ 3)) .illegalCommand

end Sys2Proof
end

