-- ==== Sys2Proof/WellFormed.lean ====
section
/-! DEFINITION. When a command is well-formed for a configuration: its unit names a component (spec/30_encoding.md
R86), its data has the length its unit requires (R84), its register number is one of the four (R88). The
well-formedness of the configuration itself (spec/00_scope.md R8) is Config.WF, in Machine/Topology.lean. -/

namespace Sys2Proof

/-- No check of R88 (2) to (4) fails. -/
abbrev Instr.WF (cfg : Config) (i : Instr) : Prop := i.operandFault cfg = none

end Sys2Proof
end

