-- ==== Sys2Proof/Decode.lean ====
section
/-! DEFINITION. The decoder of spec/30_encoding.md sections 2 to 4, total on any string of bytes; the encoder, written
from the same tables (R83, R85); and the packet that a word of the opcode table stands for. -/

namespace Sys2Proof

/-! ### The formats (R83) -/

/-- The ten command formats (R83). -/
inductive Format where
  | f0 | fu | fr | fub | fuh | fuw | fuv | frc | frcv | fpx
  deriving DecidableEq, Repr

/-- The format of an opcode (R85); none for the opcodes of R87. -/
def formatOf (opcode : Nat) : Option Format :=
  match opcode with
  | 0x10 => some .f0
  | 0x11 => some .frc
  | 0x12 => some .f0
  | 0x13 => some .f0
  | 0x14 => some .frc
  | 0x15 => some .frcv
  | 0x16 => some .f0
  | 0x17 => some .f0
  | 0x20 => some .fub
  | 0x21 => some .fuv
  | 0x22 => some .fu
  | 0x23 => some .fu
  | 0x24 => some .fuv
  | 0x28 => some .fu
  | 0x29 => some .fu
  | 0x30 => some .fuv
  | 0x31 => some .fuv
  | 0x40 => some .fu
  | 0x41 => some .fu
  | 0x42 => some .fu
  | 0x43 => some .fu
  | 0x50 => some .fuv
  | 0x51 => some .fub
  | 0x52 => some .fuh
  | 0x53 => some .fuw
  | 0x60 => some .fpx
  | 0x61 => some .f0
  | 0x62 => some .f0
  | 0x68 => some .fpx
  | 0x69 => some .f0
  | 0x6A => some .f0
  | 0x6B => some .f0
  | 0x70 => some .fr
  | _ => none

/-- L of a FUV packet, from its opcode and its unit (R84). -/
def dataLen (cfg : Config) (opcode : Nat) (unit : Byte) : Nat :=
  if opcode = 0x50 then cfg.writerLen unit
  else if opcode = 0x30 ∨ opcode = 0x31 then cfg.bankLen unit
  else cfg.chainLen unit

/-- The exact length of a packet, from its first two bytes and the configuration (R83, R84). -/
def Format.len (cfg : Config) (opcode : Nat) (unit : Byte) : Format → Nat
  | .f0 => 1
  | .fu => 2
  | .fr => 2
  | .fub => 3
  | .fuh => 4
  | .fuw => 6
  | .fuv => 2 + dataLen cfg opcode unit
  | .frc => 5
  | .frcv => 6
  | .fpx => 6

/-! ### Reading the operands of each format, in the order of checks of R88 -/

/-- The 16-bit operand whose bytes are given, low byte first (R82). -/
def half (lo hi : Byte) : Half := BitVec.ofNat 16 (natLE [lo, hi])

/-- The 32-bit operand whose bytes are given, low byte first (R82). -/
def word (b0 b1 b2 b3 : Byte) : Word := BitVec.ofNat 32 (natLE [b0, b1, b2, b3])

/-- F0: no operand. -/
def read0 (i : Instr) : Packet → Except Cause Instr
  | [] => .ok i
  | _ => .error .illegalCommand

/-- The unit byte of a format that has one: present, else ILLEGAL_COMMAND; legal, else BAD_UNIT; then the rest. -/
def readUnit (count : Nat) (rest : Byte → Packet → Except Cause Instr) : Packet → Except Cause Instr
  | [] => .error .illegalCommand
  | u :: bs => if u.toNat < count then rest u bs else .error .badUnit

/-- FU: a unit. -/
def readU (count : Nat) (mk : Byte → Instr) : Packet → Except Cause Instr :=
  readUnit count fun u => read0 (mk u)

/-- FUB: a unit and an imm8. -/
def readUB (count : Nat) (mk : Byte → Byte → Instr) : Packet → Except Cause Instr :=
  readUnit count fun
    | u, [b] => .ok (mk u b)
    | _, _ => .error .illegalCommand

/-- FUH: a unit and an imm16. -/
def readUH (count : Nat) (mk : Byte → Half → Instr) : Packet → Except Cause Instr :=
  readUnit count fun
    | u, [b0, b1] => .ok (mk u (half b0 b1))
    | _, _ => .error .illegalCommand

/-- FUW: a unit and an imm32. -/
def readUW (count : Nat) (mk : Byte → Word → Instr) : Packet → Except Cause Instr :=
  readUnit count fun
    | u, [b0, b1, b2, b3] => .ok (mk u (word b0 b1 b2 b3))
    | _, _ => .error .illegalCommand

/-- FUV: a unit and L bytes of data. -/
def readUV (count : Nat) (len : Byte → Nat) (mk : Byte → List Byte → Instr) : Packet → Except Cause Instr :=
  readUnit count fun u data => if data.length = len u then .ok (mk u data) else .error .illegalCommand

/-- FR: a register number, at most 3 (R88, check 4). -/
def readR (mk : Byte → Instr) : Packet → Except Cause Instr
  | [r] => if r.toNat ≤ 3 then .ok (mk r) else .error .illegalCommand
  | _ => .error .illegalCommand

/-- FRC: a row and a column. -/
def readRC (mk : Half → Half → Instr) : Packet → Except Cause Instr
  | [r0, r1, c0, c1] => .ok (mk (half r0 r1) (half c0 c1))
  | _ => .error .illegalCommand

/-- FRCV and FPX: two 16-bit operands and a byte. -/
def readRCV (mk : Half → Half → Byte → Instr) : Packet → Except Cause Instr
  | [r0, r1, c0, c1, v] => .ok (mk (half r0 r1) (half c0 c1) v)
  | _ => .error .illegalCommand

/-- The decoder (R85, R87, R88 checks 1 to 4): a command, or the cause of the fault the packet raises. -/
def decode (cfg : Config) : Packet → Except Cause Instr
  | [] => .error .illegalCommand
  | op :: bs =>
    match op.toNat with
    | 0x10 => read0 .dbAopen bs
    | 0x11 => readRC .dbArd bs
    | 0x12 => read0 .dbAclose bs
    | 0x13 => read0 .dbIopen bs
    | 0x14 => readRC .dbIrd bs
    | 0x15 => readRCV .dbIwr bs
    | 0x16 => read0 .dbIclose bs
    | 0x17 => read0 .dbSwap bs
    | 0x20 => readUB cfg.chains.length .srShiftb bs
    | 0x21 => readUV cfg.chains.length cfg.chainLen .srShiftx bs
    | 0x22 => readU cfg.chains.length .srLatch bs
    | 0x23 => readU cfg.chains.length .srClear bs
    | 0x24 => readUV cfg.chains.length cfg.chainLen .srWritex bs
    | 0x28 => readU cfg.groups.length .cgLatchall bs
    | 0x29 => readU cfg.groups.length .cgClearall bs
    | 0x30 => readUV cfg.banks.length cfg.bankLen .pbShiftl bs
    | 0x31 => readUV cfg.banks.length cfg.bankLen .pbWritex bs
    | 0x40 => readU cfg.readers.length .brRdbits bs
    | 0x41 => readU cfg.readers.length .brRd8 bs
    | 0x42 => readU cfg.readers.length .brRd16 bs
    | 0x43 => readU cfg.readers.length .brRd32 bs
    | 0x50 => readUV cfg.writers.length cfg.writerLen .bwWrbits bs
    | 0x51 => readUB cfg.writers.length .bwWr8 bs
    | 0x52 => readUH cfg.writers.length .bwWr16 bs
    | 0x53 => readUW cfg.writers.length .bwWr32 bs
    | 0x60 => readRCV .pxsWrite bs
    | 0x61 => read0 .pxsArange bs
    | 0x62 => read0 .pxsCrange bs
    | 0x68 => readRCV .pxbWrite bs
    | 0x69 => read0 .pxbArange bs
    | 0x6A => read0 .pxbCrange bs
    | 0x6B => read0 .pxbPresent bs
    | 0x70 => readR .sysRdreg bs
    | _ => .error .illegalCommand

/-! ### The encoder -/

/-- The packet of a command (R83, R85). -/
def encode : Instr → Packet
  | .dbAopen => [0x10]
  | .dbArd row col => 0x11 :: bytesLE 2 row.toNat ++ bytesLE 2 col.toNat
  | .dbAclose => [0x12]
  | .dbIopen => [0x13]
  | .dbIrd row col => 0x14 :: bytesLE 2 row.toNat ++ bytesLE 2 col.toNat
  | .dbIwr row col val => 0x15 :: bytesLE 2 row.toNat ++ bytesLE 2 col.toNat ++ [val]
  | .dbIclose => [0x16]
  | .dbSwap => [0x17]
  | .srShiftb u b => [0x20, u, b]
  | .srShiftx u data => 0x21 :: u :: data
  | .srLatch u => [0x22, u]
  | .srClear u => [0x23, u]
  | .srWritex u data => 0x24 :: u :: data
  | .cgLatchall u => [0x28, u]
  | .cgClearall u => [0x29, u]
  | .pbShiftl u data => 0x30 :: u :: data
  | .pbWritex u data => 0x31 :: u :: data
  | .brRdbits u => [0x40, u]
  | .brRd8 u => [0x41, u]
  | .brRd16 u => [0x42, u]
  | .brRd32 u => [0x43, u]
  | .bwWrbits u data => 0x50 :: u :: data
  | .bwWr8 u b => [0x51, u, b]
  | .bwWr16 u x => 0x52 :: u :: bytesLE 2 x.toNat
  | .bwWr32 u x => 0x53 :: u :: bytesLE 4 x.toNat
  | .pxsWrite h v color => 0x60 :: bytesLE 2 h.toNat ++ bytesLE 2 v.toNat ++ [color]
  | .pxsArange => [0x61]
  | .pxsCrange => [0x62]
  | .pxbWrite h v color => 0x68 :: bytesLE 2 h.toNat ++ bytesLE 2 v.toNat ++ [color]
  | .pxbArange => [0x69]
  | .pxbCrange => [0x6A]
  | .pxbPresent => [0x6B]
  | .sysRdreg reg => [0x70, reg]

/-! ### Words of the opcode table -/

/-- The packet that the low nbits bits of w stand for (log 15): their bytes, byte 0 the least significant, then as many
zero bytes as the format of the opcode needs and no more than it has; the bytes as they are where the opcode is in no
row of R85. -/
def wordPacket (cfg : Config) (nbits w : Nat) : Packet :=
  let raw := bytesLE (byteCount nbits) (w % 2 ^ nbits)
  let opcode := (raw.getD 0 0).toNat
  match formatOf opcode with
  | none => raw
  | some f =>
    let len := f.len cfg opcode (raw.getD 1 0)
    (raw ++ List.replicate len 0).take len

/-- The command the decoder reads, in the reference instance (log 1), from a word numbered as spec/opcode_table.json
numbers it. -/
def decodeTableWord (nbits w : Nat) : Option Instr := (decode Config.ri (wordPacket Config.ri nbits w)).toOption

end Sys2Proof
end

