-- ==== Sys2Proof/Machine/PowerOn.lean ====
section
/-! DEFINITION. What reset leaves unspecified (spec/70_reset_and_hazards.md R262), as data drawn once: the levels of
the data lines, the registers of the SIPO devices, the scan engine's sampled values; and the devices right after
reset (spec/10_state.md R35, R36). -/

namespace Sys2Proof.Machine

/-- A SIPO device (R35): the serial register SR and the output register OUT, each 8·N bits, as numbers below 2^(8·N)
(stage p is the bit of weight 2^p). OUT is `none` for a device wired to no latch line: there it is outside the model
(R36, log 9). -/
structure Device where
  id  : DevId
  sr  : Nat
  out : Option Nat
  deriving DecidableEq, Repr

/-- One arbitrary value for everything reset leaves unspecified (R262); what is not listed is 0. -/
structure Draw where
  lines : List (LineId × Level)
  regs  : List (DevId × Nat × Nat)
  h     : Half
  v     : Half
  snap  : Bool
  val   : Byte
  deriving DecidableEq, Repr

/-- DESIGN CHOICE (logs 2, 3, 4): everything unspecified is 0. -/
def Draw.zero : Draw := { lines := [], regs := [], h := 0, v := 0, snap := false, val := 0 }

/-- The SR and OUT drawn for a device. -/
def Draw.regsOf (d : Draw) (id : DevId) : Nat × Nat :=
  match d.regs.find? (fun p => p.1 = id) with
  | some p => p.2
  | none => (0, 0)

/-- A device right after reset: SR and OUT as drawn, cut to 8·N bits; no OUT where no latch line is wired. -/
def resetDevice (cfg : Config) (d : Draw) (id : DevId) : Device :=
  match cfg.wiring id with
  | none => { id := id, sr := 0, out := none }
  | some w =>
    { id := id, sr := (d.regsOf id).1 % 2 ^ (8 * w.n),
      out := w.latch.map fun _ => (d.regsOf id).2 % 2 ^ (8 * w.n) }

end Sys2Proof.Machine
end

