-- ==== Sys2Proof/Machine/State.lean ====
section
/-! DEFINITION. The state of the machine, plain data: everything spec/10_state.md gives the block (R42), the
configuration it was reset with, the inputs a step reads, the trace (spec/00_scope.md R16), and the agenda that says
which agent moves next. -/

namespace Sys2Proof.Machine

/-! ### The status registers (R24): named bits; unnamed bits read 0 (Machine/Flags.lean computes the bytes) -/

/-- Register 1, DIAG (R26). -/
structure DiagReg where
  noLatch : Bool
  noClear : Bool
  oor     : Bool
  deriving DecidableEq, Repr

/-- Register 2, FAULT (R28): V, and CAUSE in bits 3:0. -/
structure FaultReg where
  v     : Bool
  cause : BitVec 4
  deriving DecidableEq, Repr

/-- Register 3, TXN (R29): AO and IO say which transactions are open, `asnap` is AS and `wsnap` is WS, the buffers they
work on. -/
structure TxnReg where
  ao    : Bool
  io    : Bool
  asnap : Bool
  wsnap : Bool
  deriving DecidableEq, Repr

/-! ### The agents' sequencing state -/

/-- The command processor (R22): `cmd` is the accepted packet, `pos` how many steps of its step list have been taken,
`result` the value the command read and has not yet handed back (the local variable of its pseudocode). -/
structure Cp where
  busy   : Bool
  cmd    : Packet
  pos    : Nat
  result : List Byte
  deriving DecidableEq, Repr

/-- Not busy; what is not looked at while idle holds one fixed value (log 5). -/
def Cp.idle : Cp := { busy := false, cmd := [], pos := 0, result := [] }

/-- The phases of SCAN.ITER (R23, R212). -/
inductive Phase where
  | sH | sV | sTest | sSel | sRd | sDrv
  deriving DecidableEq, Repr

/-- The scan engine (R23). -/
structure Sc where
  phase : Phase
  h     : Half
  v     : Half
  snap  : Bool
  val   : Byte
  deriving DecidableEq, Repr

/-! ### The trace (R16) -/

/-- Who performs a memory event (R62). -/
inductive Agent where
  | host
  | scan
  deriving DecidableEq, Repr

/-- The events of a trace (R16). -/
inductive Event where
  | lineEv (id : LineId) (old new : Level)
  | busSample (ids : List LineId) (levels : List Level)
  | selStore (v : Bool)
  | selLoad (agent : Agent) (v : Bool)
  | cellRead (agent : Agent) (a : Nat) (v : Byte)
  | cellWrite (a : Nat) (v : Byte)
  | devShift (d : DevId)
  | devLatch (d : DevId)
  | devClear (d : DevId)
  | diag (kind : DiagKind)
  | faultEv (cause : Cause)
  | resp (bytes : Packet)
  | cmd (bytes : Packet)
  deriving DecidableEq, Repr

/-! ### Who moves next (R250; log 6) -/

/-- One entry of the agenda: the agent that moves, with what the outside decides of its move. -/
inductive Turn where
  /-- The command processor, until it has no command in execution: it accepts the packet offered if it is idle, and
  takes every step of the command, no other agent moving in between (log 7). -/
  | command
  /-- The command processor, one step. -/
  | cp
  /-- The scan engine, one phase. -/
  | scan
  /-- The environment sets these input lines. -/
  | env (levels : List (LineId × Level))
  /-- Reset, with the configuration and the values drawn for what reset leaves unspecified (R260, R261). -/
  | reset (cfg : Config) (draw : Draw)
  deriving DecidableEq, Repr

/-! ### The state -/

structure State where
  /-- The configuration (R7), constant between resets (R260). -/
  cfg    : Config
  /-- The framebuffer pair (R31): the cells that differ from INIT, by cell address, in canonical form. -/
  fb     : List Host.Cell
  /-- SEL.A (R25). -/
  sel    : Bool
  /-- DIAG (R26). -/
  diag   : DiagReg
  /-- FAULT (R28). -/
  fault  : FaultReg
  /-- TXN (R29). -/
  txn    : TxnReg
  /-- LINE (R33): the output lines that are high, in canonical form. -/
  lines  : List (LineId × Level)
  /-- The SIPO devices (R35), in the order of R16. -/
  devs   : List Device
  /-- The command processor (R22). -/
  cp     : Cp
  /-- The scan engine (R23). -/
  sc     : Sc
  /-- INPUT: the levels the environment drives on the input lines (R34): those that are high, in canonical form. -/
  inputs : List (LineId × Level)
  /-- INPUT: the packets the host will offer, the one offered now first (R80). -/
  host   : List Packet
  /-- The MODEL's own (log 6): the turns to come. -/
  agenda : List Turn
  /-- The trace (R16): one group of events a step, the newest group first. -/
  trace  : List (List Event)
  /-- The MODEL's own (log 9): how many steps have been taken; only the free value Config.tiedOut is given it. -/
  moment : Nat
  deriving DecidableEq, Repr

/-- What stops the machine with a fault: nothing. Every fault of the spec (R231) is an entry the machine takes (R242):
a next state, in which the scan engine goes on. -/
inductive Fault where
  deriving DecidableEq, Repr

/-- What the machine refuses. -/
inductive Refusal where
  /-- Raised by an arm of exec for an instruction without a meaning; there is none. Safe. -/
  | notModelled (mnemonic : String)
  /-- Raised by a reset whose configuration is not well-formed: no reset state exists (R8, R267, U14). Safe. -/
  | illFormedConfig
  deriving DecidableEq, Repr

/-! ### Reset (R261) -/

/-- The state right after a reset with this configuration and these drawn values. -/
def State.resetWith (cfg : Config) (d : Draw) : State where
  cfg := cfg
  fb := []
  sel := false
  diag := { noLatch := false, noClear := false, oor := false }
  fault := { v := false, cause := 0 }
  txn := { ao := false, io := false, asnap := false, wsnap := false }
  lines := cfg.resetLines d.lines
  devs := cfg.devIds.map (resetDevice cfg d)
  cp := Cp.idle
  sc := { phase := .sH, h := d.h, v := d.v, snap := d.snap, val := d.val }
  inputs := []
  host := []
  agenda := []
  trace := []
  moment := 0

/-- The machine right after reset: the reference instance (log 1), everything unspecified drawn 0 (logs 2, 3, 4). -/
def State.reset : State := State.resetWith Config.ri Draw.zero

end Sys2Proof.Machine
end

