-- ==== Sys2Proof/Machine/Flags.lean ====
section
/-! DEFINITION. The status registers: how a diagnostic sets DIAG (spec/10_state.md R26), the cause codes of FAULT
(spec/60_exceptions.md R231), and the byte each register reads as (R24 to R29), for SYS.RDREG and the status port. -/

namespace Sys2Proof

/-- The cause code (R231). -/
def Cause.code : Cause → BitVec 4
  | .width8 => 1
  | .width16 => 2
  | .illegalCommand => 3
  | .badUnit => 4
  | .protocol => 5
  | .index => 6

end Sys2Proof

namespace Sys2Proof.Machine

/-- Diag(kind) sets the sticky bit kind; the others keep their values (R26, R236). -/
def setDiag (d : DiagReg) : DiagKind → DiagReg
  | .noLatch => { d with noLatch := true }
  | .noClear => { d with noClear := true }
  | .oor => { d with oor := true }

/-- A byte from its bits, bit 0 first. -/
def byteOf (bits : List Bool) : Byte := BitVec.ofNat 8 (pack bits)

/-- SEL as a byte: bit 0 is A (R25). -/
def selByte (a : Bool) : Byte := byteOf [a]

/-- DIAG as a byte: NO_LATCH, NO_CLEAR, OOR in bits 0, 1, 2 (R26). -/
def diagByte (d : DiagReg) : Byte := byteOf [d.noLatch, d.noClear, d.oor]

/-- FAULT as a byte: V in bit 7, CAUSE in bits 3:0 (R28). -/
def faultByte (f : FaultReg) : Byte := BitVec.ofNat 8 (f.v.toNat * 128 + f.cause.toNat)

/-- TXN as a byte: AO, IO, AS, WS in bits 0 to 3 (R29). -/
def txnByte (t : TxnReg) : Byte := byteOf [t.ao, t.io, t.asnap, t.wsnap]

/-- x[reg]: the byte a status register reads as, by number (R24, R220). -/
def State.statusReg (s : State) (reg : Nat) : Byte :=
  match reg with
  | 0 => selByte s.sel
  | 1 => diagByte s.diag
  | 2 => faultByte s.fault
  | 3 => txnByte s.txn
  | _ => 0

/-- The status port: the four registers, always visible (R222). -/
def State.statusPort (s : State) : List Byte := (List.range 4).map s.statusReg

end Sys2Proof.Machine
end

