-- ==== Sys2Proof/Machine/Ops.lean ====
section
/-! DEFINITION. The named operations every command is written over: the cell space (spec/20_memory.md), the line space
and the devices' reactions (spec/41_shift_register.md R131 to R134), bus samples, the entry of a fault
(spec/60_exceptions.md R242), the response (spec/30_encoding.md R80), and the primitives of the step lists
(spec/00_scope.md R12 to R14). -/

namespace Sys2Proof.Machine

/-! ### The trace -/

/-- A step appends its group of events (R16). -/
def State.emit (s : State) (group : List Event) : State := { s with trace := group :: s.trace }

/-! ### The cell space -/

/-- The canonical form of the cell space: addresses rising, every entry a cell of the map and different from INIT. -/
abbrev Memory.wf (cfg : Config) (fb : List Host.Cell) : Prop :=
  Sparse.wf cfg.initCell fb ∧ ∀ p ∈ fb, p.1 < cfg.cellCount

/-- The cell at a cell address (R12). -/
def State.readCell (s : State) (a : Nat) : Byte := Sparse.get s.cfg.initCell s.fb a

/-- The cell space after one cell is written. -/
def State.putCell (s : State) (a : Nat) (v : Byte) : State := { s with fb := Sparse.set s.cfg.initCell s.fb a v }

/-- FB[b][r][c] (R31). -/
def State.cell (s : State) (b : Bool) (r c : Nat) : Byte := s.readCell (s.cfg.cellAddr b r c)

/-! ### The line space -/

/-- LineLevel(id): the level last driven on an output line (R13, R33). -/
def State.line (s : State) (id : LineId) : Level := Sparse.get Config.low s.lines id

/-- The level the environment drives on an input line (R34). -/
def State.input (s : State) (id : LineId) : Level := Sparse.get Config.low s.inputs id

/-- Sample(id): the level last driven where the block drives the line, the environment's otherwise (R13, R34). -/
def State.sample (s : State) (id : LineId) : Level :=
  if s.cfg.outputLines.contains id then s.line id else s.input id

/-- The line space after one line is driven. -/
def State.putLine (s : State) (id : LineId) (level : Level) : State :=
  { s with lines := Sparse.set Config.low s.lines id level }

/-! ### The devices -/

/-- What a device does at a line event (R132 to R134). -/
inductive Reaction where
  /-- Shift in the level of the serial line. -/
  | shift (ser : Level)
  /-- A clock edge while the clear line is active: the register stays all zeros (R132, U19). -/
  | held
  /-- Commit SR to OUT. -/
  | latch
  /-- Empty SR. -/
  | clear
  deriving DecidableEq, Repr

/-- The clear line is present and active (R132). -/
def clearActive (w : Wiring) (level : LineId → Level) : Bool :=
  match w.clear with
  | some (L, act) => level L == act
  | none => false

/-- How a device wired so reacts when line id goes from old to new, the levels being those after the change: a rising
clock shifts, a rising latch commits, the clear line going active clears; anything else does nothing (R131 to R134). -/
def reactionTo (w : Wiring) (level : LineId → Level) (id : LineId) (old new : Level) : Option Reaction :=
  if old = new then none
  else if id = w.clk then
    if new then some (if clearActive w level then .held else .shift (level w.ser)) else none
  else if w.latch = some id then
    if new then some .latch else none
  else if w.clear = some (id, new) then some .clear
  else none

/-- The registers of a device of n bytes after a reaction. -/
def Device.apply (d : Device) (n : Nat) : Reaction → Device
  | .shift b => { d with sr := (2 * d.sr + b.toNat) % 2 ^ (8 * n) }
  | .held => { d with sr := 0 }
  | .latch => { d with out := some d.sr }
  | .clear => { d with sr := 0 }

/-- The event of a reaction (R132 to R134). -/
def Reaction.event (id : DevId) : Reaction → List Event
  | .shift _ => [.devShift id]
  | .held => []
  | .latch => [.devLatch id]
  | .clear => [.devClear id]

/-- The reaction of one device of the block to a line event, the levels being those of the state. -/
def State.reactionOf (s : State) (id : LineId) (old new : Level) (d : Device) : Option Reaction :=
  (s.cfg.wiring d.id).bind fun w => reactionTo w s.line id old new

/-- One device after a line event. -/
def State.deviceAfter (s : State) (id : LineId) (old new : Level) (d : Device) : Device :=
  match s.cfg.wiring d.id with
  | none => d
  | some w =>
    match reactionTo w s.line id old new with
    | none => d
    | some r => d.apply w.n r

/-- The events of one device's reaction. -/
def State.deviceEvents (s : State) (id : LineId) (old new : Level) (d : Device) : List Event :=
  match s.reactionOf id old new d with
  | none => []
  | some r => Reaction.event d.id r

/-- LineWrite(id, new): the line is driven, and every device wired to it reacts in the same step (R13, R131). -/
def State.lineWrite (s : State) (id : LineId) (new : Level) : State :=
  let old := s.line id
  let t := s.putLine id new
  { t with devs := t.devs.map (t.deviceAfter id old new) }.emit
    (.lineEv id old new :: t.devs.flatMap (t.deviceEvents id old new))

/-- Drive lines one after another, no step in between. -/
def State.putLines (s : State) (ls : List (LineId × Level)) : State :=
  { s with lines := Sparse.setAll Config.low s.lines ls }

/-- The events of driving lines in list order. -/
def State.driveEvents (s : State) : List (LineId × Level) → List Event
  | [] => []
  | p :: ps => .lineEv p.1 (s.line p.1) p.2 :: (s.putLine p.1 p.2).driveEvents ps

/-- LineWriteAll: several lines in one step; no device reacts (R13, R16, R60). -/
def State.lineWriteAll (s : State) (ls : List (LineId × Level)) : State := (s.putLines ls).emit (s.driveEvents ls)

/-- SampleAll: the levels of several lines at one instant (R13, R60). -/
def State.sampleAll (s : State) (ids : List LineId) : List Level := ids.map s.sample

/-! ### Faults, diagnostics, responses -/

/-- raise Fault(cause): the one entry of every fault (R242). FAULT is set, the command ends, no response is sent; nothing
else changes. -/
def State.raiseFault (s : State) (c : Cause) : State :=
  { s with fault := { v := true, cause := c.code }, cp := Cp.idle }.emit [.faultEv c]

/-- Respond(bytes): the response is handed to the host and the command ends (R14, R80). -/
def State.respond (s : State) (bytes : List Byte) : State := { s with cp := Cp.idle }.emit [.resp bytes]

/-! ### The primitives of a step list (R14) -/

/-- How a sample becomes response bytes. -/
inductive Packing where
  /-- ceil(N/8) bytes, index i in bit i mod 8 of byte i div 8 (R100). -/
  | bits
  /-- Pack over the first `count` lines, as `bytes` bytes little-endian (R172, R176). -/
  | number (count bytes : Nat)
  deriving DecidableEq, Repr

/-- The response bytes of a sample. -/
def Packing.bytes (a : List Level) : Packing → List Byte
  | .bits => packBytes a
  | .number count bytes => bytesLE bytes (pack (a.take count))

/-- One primitive of a command's step list: one step of the command processor (R22, R250). -/
inductive Prim where
  /-- LineWrite (R13). -/
  | lineWrite (id : LineId) (level : Level)
  /-- LineWriteAll (R13). -/
  | lineWriteAll (ls : List (LineId × Level))
  /-- Diag (R14). -/
  | diag (kind : DiagKind)
  /-- The load of DB.AOPEN and its writes of TXN, one step (R114). -/
  | openActive
  /-- The writes of TXN of DB.ACLOSE (R116; one step, log 12). -/
  | closeActive
  /-- The load of DB.IOPEN and its writes of TXN (R117; one step, log 12). -/
  | openInactive
  /-- The writes of TXN of DB.ICLOSE (R122; one step, log 12). -/
  | closeInactive
  /-- MemRead in the reader snapshot's buffer (R115). -/
  | readActive (row col : Nat)
  /-- MemRead in the writer snapshot's buffer (R118). -/
  | readInactive (row col : Nat)
  /-- MemWrite in the writer snapshot's buffer (R121). -/
  | writeInactive (row col : Nat) (val : Byte)
  /-- The release store of the complement of SEL.A (R119). -/
  | swap
  /-- The plain load of SEL.A and the write of one cell of the other buffer, one step (R197). -/
  | writePixel (row col : Nat) (color : Byte)
  /-- SampleAll, with the packing of the response that follows (R171, R174). -/
  | sample (ids : List LineId) (packing : Packing)
  /-- Respond with bytes known from the command and the configuration. -/
  | respond (bytes : List Byte)
  /-- Respond with the value the command has read. -/
  | respondResult
  /-- Respond with a status register (R220). -/
  | respondReg (reg : Nat)
  deriving DecidableEq, Repr

/-- One more step of the step list has been taken (R22). -/
def State.advance (s : State) : State := { s with cp := { s.cp with pos := s.cp.pos + 1 } }

/-- The value a command has read and will respond with. -/
def State.withResult (s : State) (bytes : List Byte) : State := { s with cp := { s.cp with result := bytes } }

/-- MemRead by the command processor (R12, R115). -/
def State.hostRead (s : State) (a : Nat) : State := (s.withResult [s.readCell a]).emit [.cellRead .host a (s.readCell a)]

/-- MemWrite by the command processor (R12, R121). -/
def State.hostWrite (s : State) (a : Nat) (v : Byte) : State := (s.putCell a v).emit [.cellWrite a v]

/-- What a primitive does. -/
def State.prim (s : State) : Prim → State
  | .lineWrite id l => (s.lineWrite id l).advance
  | .lineWriteAll ls => (s.lineWriteAll ls).advance
  | .diag k => ({ s with diag := setDiag s.diag k }.emit [.diag k]).advance
  | .openActive => ({ s with txn := { s.txn with ao := true, asnap := s.sel } }.emit [.selLoad .host s.sel]).advance
  | .closeActive => ({ s with txn := { s.txn with ao := false, asnap := false } }.emit []).advance
  | .openInactive => ({ s with txn := { s.txn with io := true, wsnap := !s.sel } }.emit []).advance
  | .closeInactive => ({ s with txn := { s.txn with io := false, wsnap := false } }.emit []).advance
  | .readActive r c => (s.hostRead (s.cfg.cellAddr s.txn.asnap r c)).advance
  | .readInactive r c => (s.hostRead (s.cfg.cellAddr s.txn.wsnap r c)).advance
  | .writeInactive r c v => (s.hostWrite (s.cfg.cellAddr s.txn.wsnap r c) v).advance
  | .swap => ({ s with sel := !s.sel }.emit [.selStore (!s.sel)]).advance
  | .writePixel r c v => (s.hostWrite (s.cfg.cellAddr (!s.sel) r c) v).advance
  | .sample ids p => ((s.withResult (Packing.bytes (s.sampleAll ids) p)).emit [.busSample ids (s.sampleAll ids)]).advance
  | .respond bs => s.respond bs
  | .respondResult => s.respond s.cp.result
  | .respondReg r => s.respond [s.statusReg r]

/-- A step list, or the rest of one, taken to its end. -/
def State.runPrims (s : State) (ps : List Prim) : State := ps.foldl State.prim s

/-- A command: the first failing check takes its fault and nothing else happens; otherwise the step list is taken to its
end (R88, R241, R242, R244). -/
def runCommand (fault : Option Cause) (steps : List Prim) (s : State) : Host.Outcome State Fault Refusal :=
  match fault with
  | some c => .next (s.raiseFault c)
  | none => .next (s.runPrims steps)

/-! ### The device outputs -/

/-- The output pins of a device as a number (R35, R136): OUT; a free value below 2^(8·N) for a device wired to no latch
line (R36, log 9). -/
def State.pins (s : State) (id : DevId) : Nat :=
  match s.devs.find? (fun d => d.id = id), s.cfg.wiring id with
  | some d, some w =>
    match d.out with
    | some v => v
    | none => Config.tiedOut s.moment id % 2 ^ (8 * w.n)
  | _, _ => 0

/-- The value of chip j of a device, chip 0 the near one: the byte of pins 8·j to 8·j+7 (R35). -/
def State.chipValue (s : State) (id : DevId) (j : Nat) : Byte := BitVec.ofNat 8 (s.pins id / 256 ^ j)

end Sys2Proof.Machine
end

