-- ==== Sys2Proof/Machine/DoubleBuffer.lean ====
section
/-! DEFINITION. The DoubleBuffer commands (spec/40_double_buffer.md): for each, the checks R112 and R113 make, its step
list, and its meaning. -/

namespace Sys2Proof.Machine

/-! ### The reader transaction -/

/-- DB.AOPEN requires TXN.AO = 0 (R112). -/
def dbAopenFault (s : State) : Option Cause := require (!s.txn.ao) .protocol

/-- DB.AOPEN (R114). -/
def dbAopenSteps : List Prim := [.openActive, .respond []]

def execDbAopen (s : State) : Host.Outcome State Fault Refusal := runCommand (dbAopenFault s) dbAopenSteps s

/-- DB.ARD requires TXN.AO = 1, then an index in the grid (R112, R113). -/
def dbArdFault (row col : Half) (s : State) : Option Cause :=
  firstFault [require s.txn.ao .protocol, require (s.cfg.inGrid row.toNat col.toNat) .index]

/-- DB.ARD (R115). -/
def dbArdSteps (row col : Half) : List Prim := [.readActive row.toNat col.toNat, .respondResult]

def execDbArd (row col : Half) (s : State) : Host.Outcome State Fault Refusal :=
  runCommand (dbArdFault row col s) (dbArdSteps row col) s

/-- DB.ACLOSE requires TXN.AO = 1 (R112). -/
def dbAcloseFault (s : State) : Option Cause := require s.txn.ao .protocol

/-- DB.ACLOSE (R116). -/
def dbAcloseSteps : List Prim := [.closeActive, .respond []]

def execDbAclose (s : State) : Host.Outcome State Fault Refusal := runCommand (dbAcloseFault s) dbAcloseSteps s

/-! ### The writer transaction -/

/-- DB.IOPEN requires TXN.IO = 0 (R112). -/
def dbIopenFault (s : State) : Option Cause := require (!s.txn.io) .protocol

/-- DB.IOPEN (R117). -/
def dbIopenSteps : List Prim := [.openInactive, .respond []]

def execDbIopen (s : State) : Host.Outcome State Fault Refusal := runCommand (dbIopenFault s) dbIopenSteps s

/-- DB.IRD requires TXN.IO = 1, then an index in the grid (R112, R113). -/
def dbIrdFault (row col : Half) (s : State) : Option Cause :=
  firstFault [require s.txn.io .protocol, require (s.cfg.inGrid row.toNat col.toNat) .index]

/-- DB.IRD (R118). -/
def dbIrdSteps (row col : Half) : List Prim := [.readInactive row.toNat col.toNat, .respondResult]

def execDbIrd (row col : Half) (s : State) : Host.Outcome State Fault Refusal :=
  runCommand (dbIrdFault row col s) (dbIrdSteps row col) s

/-- DB.IWR requires TXN.IO = 1, then an index in the grid; the value is not checked (R112, R113). -/
def dbIwrFault (row col : Half) (s : State) : Option Cause :=
  firstFault [require s.txn.io .protocol, require (s.cfg.inGrid row.toNat col.toNat) .index]

/-- DB.IWR (R121). -/
def dbIwrSteps (row col : Half) (val : Byte) : List Prim := [.writeInactive row.toNat col.toNat val, .respond []]

def execDbIwr (row col : Half) (val : Byte) (s : State) : Host.Outcome State Fault Refusal :=
  runCommand (dbIwrFault row col s) (dbIwrSteps row col val) s

/-- DB.ICLOSE requires TXN.IO = 1 (R112). -/
def dbIcloseFault (s : State) : Option Cause := require s.txn.io .protocol

/-- DB.ICLOSE (R122). -/
def dbIcloseSteps : List Prim := [.closeInactive, .respond []]

def execDbIclose (s : State) : Host.Outcome State Fault Refusal := runCommand (dbIcloseFault s) dbIcloseSteps s

/-! ### Swap -/

/-- DB.SWAP requires TXN.IO = 0 (R112, R120). -/
def dbSwapFault (s : State) : Option Cause := require (!s.txn.io) .protocol

/-- DB.SWAP (R119). -/
def dbSwapSteps : List Prim := [.swap, .respond []]

def execDbSwap (s : State) : Host.Outcome State Fault Refusal := runCommand (dbSwapFault s) dbSwapSteps s

end Sys2Proof.Machine
end

