-- ==== Sys2Proof/Machine/ShiftRegister.lean ====
section
/-! DEFINITION. The chain and control-group commands (spec/41_shift_register.md): pulses, step lists, meanings. -/

namespace Sys2Proof.Machine

/-! ### Pulses and shifts -/

/-- Tick(clk): the clock rises, then falls (R13, R137). -/
def tickSteps (clk : LineId) : List Prim := [.lineWrite clk true, .lineWrite clk false]

/-- The step list of shift_byte without its Respond: for each bit, most significant first, the serial line and one tick
(R140). -/
def shiftByteSteps (ser clk : LineId) (value : Byte) : List Prim :=
  [7, 6, 5, 4, 3, 2, 1, 0].flatMap fun k => .lineWrite ser (value.getLsbD k) :: tickSteps clk

/-- The step list of shift_exact without its Respond: the bytes in array order (R141). -/
def shiftFrameSteps (ser clk : LineId) (frame : List Byte) : List Prim := frame.flatMap (shiftByteSteps ser clk)

/-- The step list of a latch without its Respond: one pulse of the line owned, or the diagnostic NO_LATCH (R137, R139,
R142). -/
def latchSteps : Option LineId → List Prim
  | some L => [.lineWrite L true, .lineWrite L false]
  | none => [.diag .noLatch]

/-- The step list of a clear without its Respond: the line owned goes to its active level and back, or the diagnostic
NO_CLEAR (R137, R139, R143). -/
def clearSteps : Option (LineId × Level) → List Prim
  | some (L, act) => [.lineWrite L act, .lineWrite L (!act)]
  | none => [.diag .noClear]

/-! ### Chain commands -/

def srShiftbFault (unit imm8 : Byte) (s : State) : Option Cause := (Instr.srShiftb unit imm8).operandFault s.cfg

/-- SR.SHIFTB (R140). -/
def srShiftbSteps (cfg : Config) (unit imm8 : Byte) : List Prim :=
  shiftByteSteps (cfg.chainAt unit).ser (cfg.chainAt unit).clk imm8 ++ [.respond []]

def execSrShiftb (unit imm8 : Byte) (s : State) : Host.Outcome State Fault Refusal :=
  runCommand (srShiftbFault unit imm8 s) (srShiftbSteps s.cfg unit imm8) s

def srShiftxFault (unit : Byte) (data : List Byte) (s : State) : Option Cause :=
  (Instr.srShiftx unit data).operandFault s.cfg

/-- SR.SHIFTX (R141). -/
def srShiftxSteps (cfg : Config) (unit : Byte) (data : List Byte) : List Prim :=
  shiftFrameSteps (cfg.chainAt unit).ser (cfg.chainAt unit).clk data ++ [.respond []]

def execSrShiftx (unit : Byte) (data : List Byte) (s : State) : Host.Outcome State Fault Refusal :=
  runCommand (srShiftxFault unit data s) (srShiftxSteps s.cfg unit data) s

def srLatchFault (unit : Byte) (s : State) : Option Cause := (Instr.srLatch unit).operandFault s.cfg

/-- SR.LATCH (R142): the latch line the chain itself owns (R139). -/
def srLatchSteps (cfg : Config) (unit : Byte) : List Prim := latchSteps (cfg.chainAt unit).latch ++ [.respond []]

def execSrLatch (unit : Byte) (s : State) : Host.Outcome State Fault Refusal :=
  runCommand (srLatchFault unit s) (srLatchSteps s.cfg unit) s

def srClearFault (unit : Byte) (s : State) : Option Cause := (Instr.srClear unit).operandFault s.cfg

/-- SR.CLEAR (R143): the clear line the chain itself owns (R139). -/
def srClearSteps (cfg : Config) (unit : Byte) : List Prim := clearSteps (cfg.chainAt unit).clearLine ++ [.respond []]

def execSrClear (unit : Byte) (s : State) : Host.Outcome State Fault Refusal :=
  runCommand (srClearFault unit s) (srClearSteps s.cfg unit) s

def srWritexFault (unit : Byte) (data : List Byte) (s : State) : Option Cause :=
  (Instr.srWritex unit data).operandFault s.cfg

/-- SR.WRITEX = shift + latch (R144). -/
def srWritexSteps (cfg : Config) (unit : Byte) (data : List Byte) : List Prim :=
  shiftFrameSteps (cfg.chainAt unit).ser (cfg.chainAt unit).clk data ++ latchSteps (cfg.chainAt unit).latch ++
    [.respond []]

def execSrWritex (unit : Byte) (data : List Byte) (s : State) : Host.Outcome State Fault Refusal :=
  runCommand (srWritexFault unit data s) (srWritexSteps s.cfg unit data) s

/-! ### Control-group commands -/

def cgLatchallFault (unit : Byte) (s : State) : Option Cause := (Instr.cgLatchall unit).operandFault s.cfg

/-- CG.LATCHALL (R145). -/
def cgLatchallSteps (cfg : Config) (unit : Byte) : List Prim :=
  latchSteps (cfg.groupAt unit.toNat).latch ++ [.respond []]

def execCgLatchall (unit : Byte) (s : State) : Host.Outcome State Fault Refusal :=
  runCommand (cgLatchallFault unit s) (cgLatchallSteps s.cfg unit) s

def cgClearallFault (unit : Byte) (s : State) : Option Cause := (Instr.cgClearall unit).operandFault s.cfg

/-- CG.CLEARALL (R146). -/
def cgClearallSteps (cfg : Config) (unit : Byte) : List Prim :=
  clearSteps (cfg.groupAt unit.toNat).clearLine ++ [.respond []]

def execCgClearall (unit : Byte) (s : State) : Host.Outcome State Fault Refusal :=
  runCommand (cgClearallFault unit s) (cgClearallSteps s.cfg unit) s

end Sys2Proof.Machine
end

