-- ==== Sys2Proof/Machine/ParallelBank.lean ====
section
/-! DEFINITION. The parallel-bank commands (spec/42_parallel_bank.md): the lockstep shift, step lists, meanings. -/

namespace Sys2Proof.Machine

/-- What every lane carries at tick i: each serial line with the bit of its lane's frame (R92, R161). -/
def laneLevels (ser : List LineId) (frames : List (List Byte)) (i : Nat) : List (LineId × Level) :=
  List.zipWith (fun id frame => (id, txBit frame i)) ser frames

/-- The step list of shift_exact_per_lane without its Respond: at each of the 8·N ticks all lanes' serial lines in one
step, then one tick of the shared clock (R161). -/
def bankShiftSteps (cfg : Config) (b : Bank) (frames : List (List Byte)) : List Prim :=
  (List.range (8 * b.n)).flatMap fun i =>
    .lineWriteAll (laneLevels b.ser frames i) :: tickSteps (cfg.groupAt b.group).clk

/-- The step list of the bank's write_exact without its Respond: shift, then the group's latch (R163). -/
def bankWriteSteps (cfg : Config) (b : Bank) (frames : List (List Byte)) : List Prim :=
  bankShiftSteps cfg b frames ++ latchSteps (cfg.groupAt b.group).latch

def pbShiftlFault (unit : Byte) (data : List Byte) (s : State) : Option Cause :=
  (Instr.pbShiftl unit data).operandFault s.cfg

/-- PB.SHIFTL (R161). -/
def pbShiftlSteps (cfg : Config) (unit : Byte) (data : List Byte) : List Prim :=
  let b := cfg.bankAt unit.toNat
  bankShiftSteps cfg b (laneFrames b.lanes b.n data) ++ [.respond []]

def execPbShiftl (unit : Byte) (data : List Byte) (s : State) : Host.Outcome State Fault Refusal :=
  runCommand (pbShiftlFault unit data s) (pbShiftlSteps s.cfg unit data) s

def pbWritexFault (unit : Byte) (data : List Byte) (s : State) : Option Cause :=
  (Instr.pbWritex unit data).operandFault s.cfg

/-- PB.WRITEX (R163). -/
def pbWritexSteps (cfg : Config) (unit : Byte) (data : List Byte) : List Prim :=
  let b := cfg.bankAt unit.toNat
  bankWriteSteps cfg b (laneFrames b.lanes b.n data) ++ [.respond []]

def execPbWritex (unit : Byte) (data : List Byte) (s : State) : Host.Outcome State Fault Refusal :=
  runCommand (pbWritexFault unit data s) (pbWritexSteps s.cfg unit data) s

end Sys2Proof.Machine
end

