-- ==== Sys2Proof/Machine/ParallelBus.lean ====
section
/-! DEFINITION. The parallel-bus commands (spec/43_parallel_bus.md): width preconditions, step lists, meanings. -/

namespace Sys2Proof.Machine

/-- The width precondition of a packed accessor (R173): the bus is no wider than the accessor. -/
def widthCheck (b : Bus) (k : Nat) (c : Cause) : Option Cause := require (decide (b.n ≤ k)) c

/-- The lines of a bus paired with the bits they take, index 0 first; a line beyond the bits given is not driven, a bit
beyond the lines is dropped (R178, R181, R184). -/
def driveLevels (b : Bus) (bits : List Level) : List (LineId × Level) := b.line.zip bits

/-! ### Reader commands -/

def brRdbitsFault (unit : Byte) (s : State) : Option Cause := (Instr.brRdbits unit).operandFault s.cfg

/-- BR.RDBITS (R171). -/
def brRdbitsSteps (cfg : Config) (unit : Byte) : List Prim :=
  [.sample (cfg.readerAt unit).line .bits, .respondResult]

def execBrRdbits (unit : Byte) (s : State) : Host.Outcome State Fault Refusal :=
  runCommand (brRdbitsFault unit s) (brRdbitsSteps s.cfg unit) s

def brRd8Fault (unit : Byte) (s : State) : Option Cause :=
  firstFault [(Instr.brRd8 unit).operandFault s.cfg, widthCheck (s.cfg.readerAt unit) 8 .width8]

/-- BR.RD8 (R174). -/
def brRd8Steps (cfg : Config) (unit : Byte) : List Prim :=
  [.sample (cfg.readerAt unit).line (.number (cfg.readerAt unit).n 1), .respondResult]

def execBrRd8 (unit : Byte) (s : State) : Host.Outcome State Fault Refusal :=
  runCommand (brRd8Fault unit s) (brRd8Steps s.cfg unit) s

def brRd16Fault (unit : Byte) (s : State) : Option Cause :=
  firstFault [(Instr.brRd16 unit).operandFault s.cfg, widthCheck (s.cfg.readerAt unit) 16 .width16]

/-- BR.RD16 (R175). -/
def brRd16Steps (cfg : Config) (unit : Byte) : List Prim :=
  [.sample (cfg.readerAt unit).line (.number (cfg.readerAt unit).n 2), .respondResult]

def execBrRd16 (unit : Byte) (s : State) : Host.Outcome State Fault Refusal :=
  runCommand (brRd16Fault unit s) (brRd16Steps s.cfg unit) s

def brRd32Fault (unit : Byte) (s : State) : Option Cause := (Instr.brRd32 unit).operandFault s.cfg

/-- BR.RD32: no precondition; lines 32 and above do not contribute (R176). -/
def brRd32Steps (cfg : Config) (unit : Byte) : List Prim :=
  [.sample (cfg.readerAt unit).line (.number (min (cfg.readerAt unit).n 32) 4), .respondResult]

def execBrRd32 (unit : Byte) (s : State) : Host.Outcome State Fault Refusal :=
  runCommand (brRd32Fault unit s) (brRd32Steps s.cfg unit) s

/-! ### Writer commands -/

def bwWrbitsFault (unit : Byte) (data : List Byte) (s : State) : Option Cause :=
  (Instr.bwWrbits unit data).operandFault s.cfg

/-- BW.WRBITS (R178). -/
def bwWrbitsSteps (cfg : Config) (unit : Byte) (data : List Byte) : List Prim :=
  [.lineWriteAll (driveLevels (cfg.writerAt unit) (unpackBytes (cfg.writerAt unit).n data)), .respond []]

def execBwWrbits (unit : Byte) (data : List Byte) (s : State) : Host.Outcome State Fault Refusal :=
  runCommand (bwWrbitsFault unit data s) (bwWrbitsSteps s.cfg unit data) s

def bwWr8Fault (unit imm8 : Byte) (s : State) : Option Cause :=
  firstFault [(Instr.bwWr8 unit imm8).operandFault s.cfg, widthCheck (s.cfg.writerAt unit) 8 .width8]

/-- BW.WR8 (R182). -/
def bwWr8Steps (cfg : Config) (unit imm8 : Byte) : List Prim :=
  [.lineWriteAll (driveLevels (cfg.writerAt unit) (unpack (cfg.writerAt unit).n imm8.toNat)), .respond []]

def execBwWr8 (unit imm8 : Byte) (s : State) : Host.Outcome State Fault Refusal :=
  runCommand (bwWr8Fault unit imm8 s) (bwWr8Steps s.cfg unit imm8) s

def bwWr16Fault (unit : Byte) (imm16 : Half) (s : State) : Option Cause :=
  firstFault [(Instr.bwWr16 unit imm16).operandFault s.cfg, widthCheck (s.cfg.writerAt unit) 16 .width16]

/-- BW.WR16 (R183). -/
def bwWr16Steps (cfg : Config) (unit : Byte) (imm16 : Half) : List Prim :=
  [.lineWriteAll (driveLevels (cfg.writerAt unit) (unpack (cfg.writerAt unit).n imm16.toNat)), .respond []]

def execBwWr16 (unit : Byte) (imm16 : Half) (s : State) : Host.Outcome State Fault Refusal :=
  runCommand (bwWr16Fault unit imm16 s) (bwWr16Steps s.cfg unit imm16) s

def bwWr32Fault (unit : Byte) (imm32 : Word) (s : State) : Option Cause := (Instr.bwWr32 unit imm32).operandFault s.cfg

/-- BW.WR32: no precondition; lines 32 and above are not driven and keep their levels (R184). -/
def bwWr32Steps (cfg : Config) (unit : Byte) (imm32 : Word) : List Prim :=
  [.lineWriteAll (driveLevels (cfg.writerAt unit) (unpack (min (cfg.writerAt unit).n 32) imm32.toNat)), .respond []]

def execBwWr32 (unit : Byte) (imm32 : Word) (s : State) : Host.Outcome State Fault Refusal :=
  runCommand (bwWr32Fault unit imm32 s) (bwWr32Steps s.cfg unit imm32) s

end Sys2Proof.Machine
end

