-- ==== Sys2Proof/Machine/PixelWriter.lean ====
section
/-! DEFINITION. The pixel writers (spec/44_pixel_writer.md): the range test of R191, step lists, meanings of the two
backends. -/

namespace Sys2Proof.Machine

/-! ### The domains -/

/-- Inclusive bounds of a backend: rows, columns, colours (R190). -/
structure PixelDomain where
  rmin : Nat
  rmax : Nat
  cmin : Nat
  cmax : Nat
  kmin : Byte
  kmax : Byte
  deriving DecidableEq, Repr

/-- The shift-register-driven writer's domain (R192). -/
def pxsDomain (cfg : Config) : PixelDomain :=
  { rmin := cfg.pxsRmin.toNat, rmax := cfg.pxsRmax.toNat, cmin := cfg.pxsCmin.toNat, cmax := cfg.pxsCmax.toNat,
    kmin := cfg.pxsKmin, kmax := cfg.pxsKmax }

/-- The bus-scan-driven writer's domain: the whole grid (R196). -/
def pxbDomain (cfg : Config) : PixelDomain :=
  { rmin := 0, rmax := cfg.h - 1, cmin := 0, cmax := cfg.w - 1, kmin := cfg.pxbKmin, kmax := cfg.pxbKmax }

/-- The range test of write_pixel(h, v, color): h a column, v a row (R191). -/
def inDomain (d : PixelDomain) (h v : Half) (color : Byte) : Bool :=
  decide (d.cmin ≤ h.toNat) && decide (h.toNat ≤ d.cmax) && decide (d.rmin ≤ v.toNat) && decide (v.toNat ≤ d.rmax) &&
    decide (d.kmin ≤ color) && decide (color ≤ d.kmax)

/-- A write out of range: the diagnostic OOR, and the empty response (R191). -/
def rejectSteps : List Prim := [.diag .oor, .respond []]

/-- The addr_range response: row minimum and maximum, column minimum and maximum, 16 bits each (R99). -/
def addrRangeBytes (d : PixelDomain) : List Byte :=
  bytesLE 2 d.rmin ++ bytesLE 2 d.rmax ++ bytesLE 2 d.cmin ++ bytesLE 2 d.cmax

/-- The color_range response: minimum, maximum (R100). -/
def colorRangeBytes (d : PixelDomain) : List Byte := [d.kmin, d.kmax]

/-! ### Shift-register-driven writer -/

/-- Without a bank the writer does not exist and each of its commands faults (R192). -/
def pxsBankCheck (cfg : Config) : Option Cause := require cfg.pxsBank.isSome .badUnit

/-- The bank the writer drives. -/
def pxsBankOf (cfg : Config) : Bank := cfg.bankAt (cfg.pxsBank.getD 0)

/-- The pixel frame: lane 0 carries h, lane 1 v, lane 2 the colour (R98). -/
def pixelFrames (n : Nat) (h v : Half) (color : Byte) : List (List Byte) :=
  [field h.toNat n, field v.toNat n, field color.toNat n]

def pxsWriteFault (s : State) : Option Cause := pxsBankCheck s.cfg

/-- PXS.WRITE (R193). -/
def pxsWriteSteps (cfg : Config) (h v : Half) (color : Byte) : List Prim :=
  if inDomain (pxsDomain cfg) h v color then
    bankWriteSteps cfg (pxsBankOf cfg) (pixelFrames (pxsBankOf cfg).n h v color) ++ [.respond []]
  else rejectSteps

def execPxsWrite (h v : Half) (color : Byte) (s : State) : Host.Outcome State Fault Refusal :=
  runCommand (pxsWriteFault s) (pxsWriteSteps s.cfg h v color) s

def pxsArangeFault (s : State) : Option Cause := pxsBankCheck s.cfg

/-- PXS.ARANGE (R194). -/
def pxsArangeSteps (cfg : Config) : List Prim := [.respond (addrRangeBytes (pxsDomain cfg))]

def execPxsArange (s : State) : Host.Outcome State Fault Refusal :=
  runCommand (pxsArangeFault s) (pxsArangeSteps s.cfg) s

def pxsCrangeFault (s : State) : Option Cause := pxsBankCheck s.cfg

/-- PXS.CRANGE (R195). -/
def pxsCrangeSteps (cfg : Config) : List Prim := [.respond (colorRangeBytes (pxsDomain cfg))]

def execPxsCrange (s : State) : Host.Outcome State Fault Refusal :=
  runCommand (pxsCrangeFault s) (pxsCrangeSteps s.cfg) s

/-! ### Bus-scan-driven writer -/

/-- PXB.WRITE requires TXN.IO = 0 (R112, R197). -/
def pxbWriteFault (s : State) : Option Cause := require (!s.txn.io) .protocol

/-- PXB.WRITE: row v, column h of the inactive buffer (R197). -/
def pxbWriteSteps (cfg : Config) (h v : Half) (color : Byte) : List Prim :=
  if inDomain (pxbDomain cfg) h v color then [.writePixel v.toNat h.toNat color, .respond []] else rejectSteps

def execPxbWrite (h v : Half) (color : Byte) (s : State) : Host.Outcome State Fault Refusal :=
  runCommand (pxbWriteFault s) (pxbWriteSteps s.cfg h v color) s

/-- PXB.ARANGE (R198). -/
def pxbArangeSteps (cfg : Config) : List Prim := [.respond (addrRangeBytes (pxbDomain cfg))]

def execPxbArange (s : State) : Host.Outcome State Fault Refusal := runCommand none (pxbArangeSteps s.cfg) s

/-- PXB.CRANGE (R199). -/
def pxbCrangeSteps (cfg : Config) : List Prim := [.respond (colorRangeBytes (pxbDomain cfg))]

def execPxbCrange (s : State) : Host.Outcome State Fault Refusal := runCommand none (pxbCrangeSteps s.cfg) s

/-- PXB.PRESENT requires TXN.IO = 0 (R112, R200). -/
def pxbPresentFault (s : State) : Option Cause := require (!s.txn.io) .protocol

/-- PXB.PRESENT: exactly the effect of DB.SWAP (R200). -/
def pxbPresentSteps : List Prim := [.swap, .respond []]

def execPxbPresent (s : State) : Host.Outcome State Fault Refusal := runCommand (pxbPresentFault s) pxbPresentSteps s

end Sys2Proof.Machine
end

