-- ==== Sys2Proof/Machine/System.lean ====
section
/-! DEFINITION. The system command (spec/46_system.md). -/

namespace Sys2Proof.Machine

def sysRdregFault (reg : Byte) (s : State) : Option Cause := (Instr.sysRdreg reg).operandFault s.cfg

/-- SYS.RDREG (R220). -/
def sysRdregSteps (reg : Byte) : List Prim := [.respondReg reg.toNat]

def execSysRdreg (reg : Byte) (s : State) : Host.Outcome State Fault Refusal :=
  runCommand (sysRdregFault reg s) (sysRdregSteps reg) s

end Sys2Proof.Machine
end

