-- ==== Sys2Proof/Machine/Dispatch.lean ====
section
/-! DEFINITION. The meaning of every command of spec/30_encoding.md R85: one arm a constructor. -/

namespace Sys2Proof.Machine

def exec (i : Instr) (s : State) : Host.Outcome State Fault Refusal :=
  match i with
  -- DoubleBuffer (spec/40_double_buffer.md)
  | .dbAopen => Sys2Proof.Machine.execDbAopen s
  | .dbArd row col => Sys2Proof.Machine.execDbArd row col s
  | .dbAclose => Sys2Proof.Machine.execDbAclose s
  | .dbIopen => Sys2Proof.Machine.execDbIopen s
  | .dbIrd row col => Sys2Proof.Machine.execDbIrd row col s
  | .dbIwr row col val => Sys2Proof.Machine.execDbIwr row col val s
  | .dbIclose => Sys2Proof.Machine.execDbIclose s
  | .dbSwap => Sys2Proof.Machine.execDbSwap s
  -- Chains and control groups (spec/41_shift_register.md)
  | .srShiftb unit imm8 => Sys2Proof.Machine.execSrShiftb unit imm8 s
  | .srShiftx unit data => Sys2Proof.Machine.execSrShiftx unit data s
  | .srLatch unit => Sys2Proof.Machine.execSrLatch unit s
  | .srClear unit => Sys2Proof.Machine.execSrClear unit s
  | .srWritex unit data => Sys2Proof.Machine.execSrWritex unit data s
  | .cgLatchall unit => Sys2Proof.Machine.execCgLatchall unit s
  | .cgClearall unit => Sys2Proof.Machine.execCgClearall unit s
  -- Parallel banks (spec/42_parallel_bank.md)
  | .pbShiftl unit data => Sys2Proof.Machine.execPbShiftl unit data s
  | .pbWritex unit data => Sys2Proof.Machine.execPbWritex unit data s
  -- Parallel buses (spec/43_parallel_bus.md)
  | .brRdbits unit => Sys2Proof.Machine.execBrRdbits unit s
  | .brRd8 unit => Sys2Proof.Machine.execBrRd8 unit s
  | .brRd16 unit => Sys2Proof.Machine.execBrRd16 unit s
  | .brRd32 unit => Sys2Proof.Machine.execBrRd32 unit s
  | .bwWrbits unit data => Sys2Proof.Machine.execBwWrbits unit data s
  | .bwWr8 unit imm8 => Sys2Proof.Machine.execBwWr8 unit imm8 s
  | .bwWr16 unit imm16 => Sys2Proof.Machine.execBwWr16 unit imm16 s
  | .bwWr32 unit imm32 => Sys2Proof.Machine.execBwWr32 unit imm32 s
  -- Pixel writers (spec/44_pixel_writer.md)
  | .pxsWrite h v color => Sys2Proof.Machine.execPxsWrite h v color s
  | .pxsArange => Sys2Proof.Machine.execPxsArange s
  | .pxsCrange => Sys2Proof.Machine.execPxsCrange s
  | .pxbWrite h v color => Sys2Proof.Machine.execPxbWrite h v color s
  | .pxbArange => Sys2Proof.Machine.execPxbArange s
  | .pxbCrange => Sys2Proof.Machine.execPxbCrange s
  | .pxbPresent => Sys2Proof.Machine.execPxbPresent s
  -- System (spec/46_system.md)
  | .sysRdreg reg => Sys2Proof.Machine.execSysRdreg reg s

end Sys2Proof.Machine
end

