-- ==== Sys2Proof/Machine/CommandProcessor.lean ====
section
/-! DEFINITION. The command processor as an agent (spec/10_state.md R22, spec/60_exceptions.md R250): the checks and the
step list of every command, one step of the processor, and its run to the end of a command. -/

namespace Sys2Proof.Machine

/-- The first failing check of a command (R88 checks 2 to 6, R241). -/
def commandFault : Instr → State → Option Cause
  | .dbAopen, s => dbAopenFault s
  | .dbArd row col, s => dbArdFault row col s
  | .dbAclose, s => dbAcloseFault s
  | .dbIopen, s => dbIopenFault s
  | .dbIrd row col, s => dbIrdFault row col s
  | .dbIwr row col _, s => dbIwrFault row col s
  | .dbIclose, s => dbIcloseFault s
  | .dbSwap, s => dbSwapFault s
  | .srShiftb u b, s => srShiftbFault u b s
  | .srShiftx u data, s => srShiftxFault u data s
  | .srLatch u, s => srLatchFault u s
  | .srClear u, s => srClearFault u s
  | .srWritex u data, s => srWritexFault u data s
  | .cgLatchall u, s => cgLatchallFault u s
  | .cgClearall u, s => cgClearallFault u s
  | .pbShiftl u data, s => pbShiftlFault u data s
  | .pbWritex u data, s => pbWritexFault u data s
  | .brRdbits u, s => brRdbitsFault u s
  | .brRd8 u, s => brRd8Fault u s
  | .brRd16 u, s => brRd16Fault u s
  | .brRd32 u, s => brRd32Fault u s
  | .bwWrbits u data, s => bwWrbitsFault u data s
  | .bwWr8 u b, s => bwWr8Fault u b s
  | .bwWr16 u x, s => bwWr16Fault u x s
  | .bwWr32 u x, s => bwWr32Fault u x s
  | .pxsWrite _ _ _, s => pxsWriteFault s
  | .pxsArange, s => pxsArangeFault s
  | .pxsCrange, s => pxsCrangeFault s
  | .pxbWrite _ _ _, s => pxbWriteFault s
  | .pxbArange, _ => none
  | .pxbCrange, _ => none
  | .pxbPresent, s => pxbPresentFault s
  | .sysRdreg reg, s => sysRdregFault reg s

/-- The step list of a command (R22): the primitives of its rule's pseudocode, in order. -/
def commandSteps (cfg : Config) : Instr → List Prim
  | .dbAopen => dbAopenSteps
  | .dbArd row col => dbArdSteps row col
  | .dbAclose => dbAcloseSteps
  | .dbIopen => dbIopenSteps
  | .dbIrd row col => dbIrdSteps row col
  | .dbIwr row col val => dbIwrSteps row col val
  | .dbIclose => dbIcloseSteps
  | .dbSwap => dbSwapSteps
  | .srShiftb u b => srShiftbSteps cfg u b
  | .srShiftx u data => srShiftxSteps cfg u data
  | .srLatch u => srLatchSteps cfg u
  | .srClear u => srClearSteps cfg u
  | .srWritex u data => srWritexSteps cfg u data
  | .cgLatchall u => cgLatchallSteps cfg u
  | .cgClearall u => cgClearallSteps cfg u
  | .pbShiftl u data => pbShiftlSteps cfg u data
  | .pbWritex u data => pbWritexSteps cfg u data
  | .brRdbits u => brRdbitsSteps cfg u
  | .brRd8 u => brRd8Steps cfg u
  | .brRd16 u => brRd16Steps cfg u
  | .brRd32 u => brRd32Steps cfg u
  | .bwWrbits u data => bwWrbitsSteps cfg u data
  | .bwWr8 u b => bwWr8Steps cfg u b
  | .bwWr16 u x => bwWr16Steps cfg u x
  | .bwWr32 u x => bwWr32Steps cfg u x
  | .pxsWrite h v color => pxsWriteSteps cfg h v color
  | .pxsArange => pxsArangeSteps cfg
  | .pxsCrange => pxsCrangeSteps cfg
  | .pxbWrite h v color => pxbWriteSteps cfg h v color
  | .pxbArange => pxbArangeSteps cfg
  | .pxbCrange => pxbCrangeSteps cfg
  | .pxbPresent => pxbPresentSteps
  | .sysRdreg reg => sysRdregSteps reg

/-- The packet offered is accepted: CP.busy is set, CP.cmd holds the packet, Cmd(bytes) is traced (R80). -/
def State.accept (s : State) (p : Packet) (rest : List Packet) : State :=
  { s with host := rest, cp := { busy := true, cmd := p, pos := 0, result := [] } }.emit [.cmd p]

/-- The next primitive of a command in execution. -/
def State.primAt (s : State) (i : Instr) : State :=
  match (commandSteps s.cfg i)[s.cp.pos]? with
  | some p => s.prim p
  | none => s

/-- One step of the command processor (R250): the acceptance of a packet, a fault entry, or one primitive. Idle with no
packet offered, or halted by a fault, it does not move (R80, R242). -/
def cpStep (s : State) : State :=
  if s.cp.busy then
    match decode s.cfg s.cp.cmd with
    | .error c => s.raiseFault c
    | .ok i =>
      if s.cp.pos = 0 then
        match commandFault i s with
        | some c => s.raiseFault c
        | none => s.primAt i
      else s.primAt i
  else if s.fault.v then s
  else
    match s.host with
    | [] => s
    | p :: rest => s.accept p rest

/-- The command in execution, taken to its end with no step of another agent in between (log 7). -/
def finishCommand (s : State) : Host.Outcome State Fault Refusal :=
  match decode s.cfg s.cp.cmd with
  | .error c => .next (s.raiseFault c)
  | .ok i => if s.cp.pos = 0 then exec i s else .next (s.runPrims ((commandSteps s.cfg i).drop s.cp.pos))

/-- The command processor until it has no command in execution: it finishes its command, or accepts the packet offered
and executes it. -/
def commandTurn (s : State) : Host.Outcome State Fault Refusal :=
  if s.cp.busy then finishCommand s
  else if s.fault.v then .next s
  else
    match s.host with
    | [] => .next s
    | p :: rest => finishCommand (s.accept p rest)

end Sys2Proof.Machine
end

