-- ==== Sys2Proof/Machine/ScanLoop.lean ====
section
/-! DEFINITION. The scan engine (spec/45_scan_loop.md R212): SCAN.ITER, one phase a step. -/

namespace Sys2Proof.Machine

/-- A sampled address: Pack of the bus's lines, with the semantics of the 16-bit accessor (R211). -/
def State.sampleAddr (s : State) (b : Bus) : Half := BitVec.ofNat 16 (pack (s.sampleAll b.line))

/-- One step of the scan engine (R212). It never faults, and a fault of the command processor does not stop it (R210). -/
def scanStep (s : State) : State :=
  match s.sc.phase with
  | .sH =>
    { s with sc := { s.sc with h := s.sampleAddr s.cfg.scanH, phase := .sV } }.emit
      [.busSample s.cfg.scanH.line (s.sampleAll s.cfg.scanH.line)]
  | .sV =>
    { s with sc := { s.sc with v := s.sampleAddr s.cfg.scanV, phase := .sTest } }.emit
      [.busSample s.cfg.scanV.line (s.sampleAll s.cfg.scanV.line)]
  | .sTest =>
    { s with sc := { s.sc with phase := if s.cfg.inGrid s.sc.v.toNat s.sc.h.toNat then .sSel else .sH } }.emit []
  | .sSel => { s with sc := { s.sc with snap := s.sel, phase := .sRd } }.emit [.selLoad .scan s.sel]
  | .sRd =>
    let a := s.cfg.cellAddr s.sc.snap s.sc.v.toNat s.sc.h.toNat
    { s with sc := { s.sc with val := s.readCell a, phase := .sDrv } }.emit [.cellRead .scan a (s.readCell a)]
  | .sDrv =>
    { s with sc := { s.sc with phase := .sH } }.lineWriteAll
      (driveLevels s.cfg.scanC (unpack s.cfg.scanC.n s.sc.val.toNat))

end Sys2Proof.Machine
end

