-- ==== Sys2Proof/Machine/Agents.lean ====
section
/-! DEFINITION. The turns of the agents (spec/60_exceptions.md R249, R250): the environment's step, the reset event
(spec/70_reset_and_hazards.md R260, R261), one turn of the agenda, and who moves when the agenda is empty. -/

namespace Sys2Proof.Machine

/-- A step of the environment: the input lines named take the levels given (R34, R250); a name that is no input line is
passed over (log 17). -/
def envStep (levels : List (LineId × Level)) (s : State) : State :=
  let named := levels.filter fun p => s.cfg.inputLines.contains p.1
  { s with inputs := Sparse.setAll Config.low s.inputs named }.emit []

/-- The reset event (R260, R261): in any state, every piece of the block's state takes its reset value; what the outside
drives and offers, the agenda and the moment are not the block's and stay. An ill-formed configuration has no reset
state (R267). -/
def resetStep (cfg : Config) (d : Draw) (s : State) : Host.Outcome State Fault Refusal :=
  if cfg.WF then
    .next { State.resetWith cfg d with inputs := s.inputs, host := s.host, agenda := s.agenda, moment := s.moment }
  else .refused .illFormedConfig

/-- Who moves when the agenda is empty (DESIGN CHOICE, log 6): the command processor while it has a command or can accept
one, else the scan engine. -/
def defaultTurn (s : State) : Turn :=
  if s.cp.busy || (!s.fault.v && !s.host.isEmpty) then .command else .scan

/-- One turn. -/
def takeTurn (t : Turn) (s : State) : Host.Outcome State Fault Refusal :=
  match t with
  | .command => commandTurn s
  | .cp => .next (cpStep s)
  | .scan => .next (scanStep s)
  | .env levels => .next (envStep levels s)
  | .reset cfg d => resetStep cfg d s

/-- The agent that moves in the next step. -/
def State.turn (s : State) : Turn := s.agenda.headD (defaultTurn s)

/-- The state in which the next step's agent moves: the agenda's entry is taken off, the moment is one later. -/
def State.begun (s : State) : State := { s with agenda := s.agenda.tail, moment := s.moment + 1 }

/-- The state in which the next step is the execution of this packet (log 15). -/
def State.offering (s : State) (p : Packet) : State :=
  { s with host := p :: s.host, agenda := .command :: s.agenda, cp := Cp.idle, fault := { v := false, cause := 0 } }

end Sys2Proof.Machine
end

