-- ==== Sys2Proof/Machine/Step.lean ====
section
/-! DEFINITION. The step of the machine: one turn of one agent (spec/60_exceptions.md R250). -/

namespace Sys2Proof.Machine

/-- One step: the next entry of the agenda moves (log 6). -/
def step (s : State) : Host.Outcome State Fault Refusal := takeTurn s.turn s.begun

/-- s with the packet that the low nbits bits of w stand for offered on the command port, and the command processor, idle
and not halted, to move next (log 15). -/
def State.withFetchWord (s : State) (nbits w : Nat) : State := s.offering (wordPacket s.cfg nbits w)

end Sys2Proof.Machine
end

