-- ==== Sys2Proof/Machine/Assembler.lean ====
section
/-! DEFINITION. The text of a command (spec/30_encoding.md R89): one command a line, the mnemonic of R85, its operands
separated by commas, numbers decimal or 0x hexadecimal, byte arrays in brackets, bits[…] for a Boolean array, a
semicolon before a comment. `assemble` gives the packet the host sends; what is not of that form gives none. -/

namespace Sys2Proof.Assembler

/-! ### Tokens -/

inductive Token where
  | word (cs : List Char)
  | num (n : Nat)
  | comma
  | lbracket
  | rbracket
  deriving DecidableEq, Repr

/-- The value of a digit in a base of at most 16. -/
def digit (base : Nat) (c : Char) : Option Nat :=
  let n := c.toNat
  let v :=
    if 48 ≤ n ∧ n ≤ 57 then n - 48
    else if 97 ≤ n ∧ n ≤ 102 then n - 87
    else if 65 ≤ n ∧ n ≤ 70 then n - 55
    else 16
  if v < base then some v else none

/-- The number whose digits are given, most significant first. -/
def digits (base : Nat) : List Char → Nat → Option Nat
  | [], acc => some acc
  | c :: cs, acc => (digit base c).bind fun d => digits base cs (acc * base + d)

/-- A token from its characters: a number where the first is a digit, else a word; none for a malformed number. -/
def token : List Char → Option Token
  | [] => none
  | '0' :: 'x' :: c :: cs => (digits 16 (c :: cs) 0).map .num
  | c :: cs => if (digit 10 c).isSome then (digits 10 (c :: cs) 0).map .num else some (.word (c :: cs))

/-- The token collected so far, if there is one, before the rest. -/
def flush (acc : List Char) (rest : Option (List Token)) : Option (List Token) :=
  if acc.isEmpty then rest else (token acc).bind fun t => rest.map (t :: ·)

/-- The tokens of a line; a semicolon ends it. -/
def tokens : List Char → List Char → Option (List Token)
  | [], acc => flush acc (some [])
  | c :: cs, acc =>
    if c = ';' then flush acc (some [])
    else if c = ' ' ∨ c = '\t' then flush acc (tokens cs [])
    else if c = ',' then flush acc ((tokens cs []).map (.comma :: ·))
    else if c = '[' then flush acc ((tokens cs []).map (.lbracket :: ·))
    else if c = ']' then flush acc ((tokens cs []).map (.rbracket :: ·))
    else tokens cs (acc ++ [c])

/-! ### Operands -/

/-- The numbers of an array after its bracket, and what follows it. -/
def items : List Token → Option (List Nat × List Token)
  | .num n :: .comma :: ts => (items ts).map fun p => (n :: p.1, p.2)
  | .num n :: .rbracket :: ts => some ([n], ts)
  | _ => none

/-- The lanes of a bank's data after the outer bracket, joined in order; `fuel` bounds their number. -/
def lanes : Nat → List Token → Option (List Nat)
  | 0, _ => none
  | fuel + 1, .lbracket :: ts =>
    match items ts with
    | some (ns, [.rbracket]) => some ns
    | some (ns, .comma :: rest) => (lanes fuel rest).map (ns ++ ·)
    | _ => none
  | _ + 1, _ => none

/-- A number as n bytes, if it fits. -/
def sized (n v : Nat) : Option (List Byte) := if v < 256 ^ n then some (bytesLE n v) else none

/-- Numbers as bytes, if each fits. -/
def byteList : List Nat → Option (List Byte)
  | [] => some []
  | v :: vs => (sized 1 v).bind fun b => (byteList vs).map (b ++ ·)

/-- Numbers as bits, if each is 0 or 1. -/
def bitList : List Nat → Option (List Level)
  | [] => some []
  | v :: vs => if v < 2 then (bitList vs).map ((v == 1) :: ·) else none

/-- data[L]: a byte array, the per-lane arrays of a bank, or a Boolean array. DESIGN CHOICE (log 22): R89 gives each
mnemonic its array and is silent on another; here every mnemonic with data takes each of the three, an array of arrays is
joined in order whatever the lengths of its lanes, and the decoder checks the length of the whole. -/
def arrayBytes : List Token → Option (List Byte)
  | .lbracket :: .lbracket :: ts => (lanes ts.length (.lbracket :: ts)).bind byteList
  | .lbracket :: ts =>
    match items ts with
    | some (ns, []) => byteList ns
    | _ => none
  | .word ['b', 'i', 't', 's'] :: .lbracket :: ts =>
    match items ts with
    | some (ns, []) => (bitList ns).map packBytes
    | _ => none
  | _ => none

/-- Numbers separated by commas, each taking the bytes given for it. -/
def numberBytes : List Nat → List Token → Option (List Byte)
  | [], [] => some []
  | [n], [.num v] => sized n v
  | n :: m :: ns, .num v :: .comma :: ts => (sized n v).bind fun b => (numberBytes (m :: ns) ts).map (b ++ ·)
  | _, _ => none

/-- The operand bytes of a format (R83). -/
def operandBytes : Format → List Token → Option (List Byte)
  | .f0, ts => numberBytes [] ts
  | .fu, ts => numberBytes [1] ts
  | .fr, ts => numberBytes [1] ts
  | .fub, ts => numberBytes [1, 1] ts
  | .fuh, ts => numberBytes [1, 2] ts
  | .fuw, ts => numberBytes [1, 4] ts
  | .frc, ts => numberBytes [2, 2] ts
  | .frcv, ts => numberBytes [2, 2, 1] ts
  | .fpx, ts => numberBytes [2, 2, 1] ts
  | .fuv, .num u :: .comma :: ts => (sized 1 u).bind fun b => (arrayBytes ts).map (b ++ ·)
  | .fuv, _ => none

/-! ### Mnemonics -/

/-- The mnemonics of R85 with their opcodes. -/
def mnemonics : List (String × Byte) :=
  [("DB.AOPEN", 0x10), ("DB.ARD", 0x11), ("DB.ACLOSE", 0x12), ("DB.IOPEN", 0x13), ("DB.IRD", 0x14), ("DB.IWR", 0x15),
   ("DB.ICLOSE", 0x16), ("DB.SWAP", 0x17)] ++
  [("SR.SHIFTB", 0x20), ("SR.SHIFTX", 0x21), ("SR.LATCH", 0x22), ("SR.CLEAR", 0x23), ("SR.WRITEX", 0x24),
   ("CG.LATCHALL", 0x28), ("CG.CLEARALL", 0x29), ("PB.SHIFTL", 0x30), ("PB.WRITEX", 0x31)] ++
  [("BR.RDBITS", 0x40), ("BR.RD8", 0x41), ("BR.RD16", 0x42), ("BR.RD32", 0x43), ("BW.WRBITS", 0x50), ("BW.WR8", 0x51),
   ("BW.WR16", 0x52), ("BW.WR32", 0x53)] ++
  [("PXS.WRITE", 0x60), ("PXS.ARANGE", 0x61), ("PXS.CRANGE", 0x62), ("PXB.WRITE", 0x68), ("PXB.ARANGE", 0x69),
   ("PXB.CRANGE", 0x6A), ("PXB.PRESENT", 0x6B), ("SYS.RDREG", 0x70)]

/-- The packet of a line of text (R89). -/
def assemble (line : List Char) : Option Packet :=
  match tokens line [] with
  | some (.word m :: ts) =>
    (mnemonics.find? fun p => p.1.toList = m).bind fun p =>
      (formatOf p.2.toNat).bind fun f => (operandBytes f ts).map (p.2 :: ·)
  | _ => none

end Sys2Proof.Assembler
end

