-- ==== Sys2Proof/Machine/Pseudo.lean ====
section
/-! DEFINITION. The pseudo-instructions of spec/30_encoding.md R90 and their expansions. -/

namespace Sys2Proof

/-- A cell access inside a writer transaction: DB.IRD or DB.IWR. -/
inductive InactiveAccess where
  | rd (row col : Half)
  | wr (row col : Half) (val : Byte)
  deriving DecidableEq, Repr

/-- The pseudo-instructions (R90); the body of WITH_ACTIVE is the cells it reads. -/
inductive Pseudo where
  | withActive (body : List (Half × Half))
  | withInactive (body : List InactiveAccess)
  | bankLatch (k : Nat)
  | bankClear (k : Nat)
  deriving DecidableEq, Repr

/-- The command of an access. -/
def InactiveAccess.command : InactiveAccess → Instr
  | .rd row col => .dbIrd row col
  | .wr row col val => .dbIwr row col val

/-- A control-group command on a bank's group; none for a bank that does not exist, or whose group no unit byte can name
(R81; DEDUCED, log 22). -/
def Pseudo.onGroup (cfg : Config) (k : Nat) (command : Byte → Instr) : Option (List Instr) :=
  (cfg.banks[k]?).bind fun b => if b.group < 256 then some [command (BitVec.ofNat 8 b.group)] else none

/-- The commands a pseudo-instruction stands for (R90), if there are such commands. -/
def Pseudo.expand (cfg : Config) : Pseudo → Option (List Instr)
  | .withActive body => some (.dbAopen :: body.map (fun p => .dbArd p.1 p.2) ++ [.dbAclose])
  | .withInactive body => some (.dbIopen :: body.map InactiveAccess.command ++ [.dbIclose])
  | .bankLatch k => onGroup cfg k .cgLatchall
  | .bankClear k => onGroup cfg k .cgClearall

end Sys2Proof
end

