-- ==== Sys2Proof/Safety.lean ====
section
/-! DEFINITION. What claims are stated in: the invariants of the block, the idle levels of its control lines, runs and
their fairness, the happens-before relation of spec/20_memory.md, and the two named assumptions of
spec/70_reset_and_hazards.md (A_DWELL, A_QUIESCE). -/

namespace Sys2Proof.Machine

/-! ### Invariants of the block -/

/-- The cell space and the two line spaces are in canonical form. -/
abbrev State.Canonical (s : State) : Prop :=
  Memory.wf s.cfg s.fb ∧ Sparse.wf Config.low s.lines ∧ Sparse.wf Config.low s.inputs

/-- There is one device per chain and per lane, its registers fit its width, and it has an OUT exactly when a latch line
is wired to it (R35, R36). -/
abbrev State.DevicesFit (s : State) : Prop :=
  s.devs.map Device.id = s.cfg.devIds ∧
  ∀ d ∈ s.devs, ∀ w ∈ (s.cfg.wiring d.id).toList,
    d.sr < 2 ^ (8 * w.n) ∧ d.out.isSome = w.latch.isSome ∧ ∀ v ∈ d.out.toList, v < 2 ^ (8 * w.n)

/-- A snapshot reads 0 while its transaction is closed, and the writer snapshot is the inactive buffer while it is open
(R29, R38). -/
abbrev State.TxnConsistent (s : State) : Prop :=
  (s.txn.ao = false → s.txn.asnap = false) ∧ (s.txn.io = false → s.txn.wsnap = false) ∧
  (s.txn.io = true → s.txn.wsnap = !s.sel)

/-- CAUSE is 0 while V is 0; after a fault it is one of the six codes and no command is in execution (R28, R231, R242). -/
abbrev State.FaultConsistent (s : State) : Prop :=
  (s.fault.v = false → s.fault.cause = 0) ∧
  (s.fault.v = true → s.cp.busy = false ∧ 1 ≤ s.fault.cause ∧ s.fault.cause ≤ 6)

/-- Past S_TEST the sampled address is one of the grid (R212). -/
abbrev State.ScanInGrid (s : State) : Prop :=
  s.sc.phase = .sSel ∨ s.sc.phase = .sRd ∨ s.sc.phase = .sDrv → s.cfg.inGrid s.sc.v.toNat s.sc.h.toNat = true

/-- The invariant of the block: the configuration is well-formed and all of the above hold. -/
structure State.Inv (s : State) : Prop where
  wf        : s.cfg.WF
  canonical : s.Canonical
  devices   : s.DevicesFit
  txn       : s.TxnConsistent
  fault     : s.FaultConsistent
  scan      : s.ScanInGrid

/-! ### Idle levels (R138) -/

/-- Every clock and latch line is 0 and every clear line inactive. -/
abbrev State.ControlIdle (s : State) : Prop :=
  (∀ L ∈ s.cfg.clkLines, s.line L = false) ∧ (∀ L ∈ s.cfg.latchLines, s.line L = false) ∧
  (∀ p ∈ s.cfg.clearLines, s.line p.1 = !p.2)

/-- The state once the command in execution, if any, has been taken to its end. -/
def State.finished (s : State) : State :=
  if s.cp.busy then
    match finishCommand s with
    | .next t => t
    | _ => s
  else s

/-- The control lines will be idle once the command in execution has ended; with no command in execution, they are. -/
abbrev State.Settles (s : State) : Prop := s.finished.ControlIdle

/-! ### What the devices hold after the shift-register commands -/

/-- The number that k copies of a line's level make: what a device takes in whose serial line does not move (R273). -/
def State.heldBits (s : State) (k : Nat) (id : LineId) : Nat := if s.line id then 2 ^ k - 1 else 0

/-- A device after k ticks of a clock: if the clock is its own, the number its serial line sent has come in at stage 0,
and what left the far end is lost (R132, R135). -/
def State.loaded (s : State) (clk : LineId) (k : Nat) (sent : LineId → Nat) (d : Device) : Device :=
  match s.cfg.wiring d.id with
  | none => d
  | some w => if w.clk = clk then { d with sr := (d.sr * 2 ^ k + sent w.ser) % 2 ^ (8 * w.n) } else d

/-- A device after one pulse of a latch line: committed if the line is wired to it (R133). -/
def State.committed (s : State) (L : LineId) (d : Device) : Device :=
  match s.cfg.wiring d.id with
  | none => d
  | some w => if w.latch = some L then { d with out := some d.sr } else d

/-- A device after one pulse of a clear line: emptied if the line is wired to it (R134). -/
def State.emptied (s : State) (L : LineId) (d : Device) : Device :=
  match s.cfg.wiring d.id with
  | none => d
  | some w => if w.clear.map Prod.fst = some L then { d with sr := 0 } else d

/-- What a serial line sends in a bank's shift: its lane's frame, or copies of its level if it is no lane's (R161,
R273). -/
def State.laneSent (s : State) (b : Bank) (frames : List (List Byte)) (id : LineId) : Nat :=
  match (b.ser.zip frames).lookup id with
  | some f => frameValue f
  | none => s.heldBits (8 * b.n) id

/-- The level of a line after a bank's shift: a lane's serial line keeps the last bit sent (R161). -/
def State.lineAfterShift (s : State) (b : Bank) (frames : List (List Byte)) (id : LineId) : Level :=
  match (b.ser.zip frames).lookup id with
  | some f => txBit f (8 * b.n - 1)
  | none => s.line id

/-! ### Units by opcode (R86) -/

/-- The number of units an opcode's unit operand may name; none where it has no unit. -/
def unitCount (cfg : Config) (opcode : Nat) : Option Nat :=
  if 0x20 ≤ opcode ∧ opcode ≤ 0x24 then some cfg.chains.length
  else if 0x28 ≤ opcode ∧ opcode ≤ 0x29 then some cfg.groups.length
  else if 0x30 ≤ opcode ∧ opcode ≤ 0x31 then some cfg.banks.length
  else if 0x40 ≤ opcode ∧ opcode ≤ 0x43 then some cfg.readers.length
  else if 0x50 ≤ opcode ∧ opcode ≤ 0x53 then some cfg.writers.length
  else none

/-! ### The trace and the memory order (R62 to R68) -/

/-- The events of a trace, newest first. -/
def State.events (s : State) : List Event := s.trace.flatten

/-- The value of the latest write to a cell, among events newest first. -/
def lastWrite (a : Nat) : List Event → Option Byte
  | [] => none
  | .cellWrite a' v :: es => if a' = a then some v else lastWrite a es
  | _ :: es => lastWrite a es

/-- The value of the latest selector store, among events newest first; 0 after reset (R63). -/
def lastStore : List Event → Bool
  | [] => false
  | .selStore v :: _ => v
  | _ :: es => lastStore es

/-- The number of selector stores. -/
def storeCount : List Event → Nat
  | [] => 0
  | .selStore _ :: es => storeCount es + 1
  | _ :: es => storeCount es

/-- A memory event agrees with the events before it: a cell read returns the latest write to that cell, a selector load
the latest store (R68). -/
def Event.Agrees (cfg : Config) (before : List Event) : Event → Prop
  | .cellRead _ a v => v = (lastWrite a before).getD (cfg.initCell a)
  | .selLoad _ v => v = lastStore before
  | _ => True

/-- Every event agrees with those before it, among events newest first (R68). -/
def EventsAgree (cfg : Config) : List Event → Prop
  | [] => True
  | e :: older => e.Agrees cfg older ∧ EventsAgree cfg older

/-- The state is what its trace left behind: cells and selector hold the latest writes, and every read in the trace
returned the latest write before it (R68). -/
def State.Coherent (s : State) : Prop :=
  (∀ a, s.readCell a = (lastWrite a s.events).getD (s.cfg.initCell a)) ∧ s.sel = lastStore s.events ∧
  EventsAgree s.cfg s.events

/-- The agent of a memory or line event (R62); none for the other events. Its lines tell whose a line event is: the scan
engine drives the colour lines and samples its address buses, and no command does (R74). -/
def Event.agent (cfg : Config) : Event → Option Agent
  | .lineEv id _ _ => some (if id ∈ cfg.scanC.line then .scan else .host)
  | .busSample ids _ => some (if ids = cfg.scanH.line ∨ ids = cfg.scanV.line then .scan else .host)
  | .selStore _ => some .host
  | .selLoad g _ => some g
  | .cellRead g _ _ => some g
  | .cellWrite _ _ => some .host
  | _ => none

/-- A group of events holds a memory or line event of the agent. -/
def ActsIn (cfg : Config) (group : List Event) (g : Agent) : Prop := ∃ e ∈ group, e.agent cfg = some g

/-- Group j acquires what group i released: i holds a selector store, j a later load, and no group between them holds a
store, so the load returns that store (R65). Positions count from the newest group. -/
def SyncsWith (tr : List (List Event)) (i j : Nat) : Prop :=
  j < i ∧ (∃ x v, tr[i]? = some x ∧ .selStore v ∈ x) ∧ (∃ y g v, tr[j]? = some y ∧ .selLoad g v ∈ y) ∧
  ∀ k z v, j < k → k < i → tr[k]? = some z → .selStore v ∉ z

/-- Happens-before (R65): the transitive closure of program order and synchronises-with, over the memory and line events
of a trace (R62). The events of one group belong to one instant (R16), so the order is one of groups. Positions count
from the newest group, so the earlier group has the greater position. DESIGN CHOICE (log 24): R62 and R65 put line events
in the order, R70 says that a swap orders no line events of different agents; this is the order of R62 and R65, and among
memory events the two readings agree. -/
inductive HappensBefore (cfg : Config) (tr : List (List Event)) : Nat → Nat → Prop where
  | po {i j : Nat} {x y : List Event} {g : Agent} (hi : tr[i]? = some x) (hj : tr[j]? = some y) (lt : j < i)
      (hx : ActsIn cfg x g) (hy : ActsIn cfg y g) : HappensBefore cfg tr i j
  | sync {i j : Nat} (h : SyncsWith tr i j) : HappensBefore cfg tr i j
  | trans {i j k : Nat} (h1 : HappensBefore cfg tr i j) (h2 : HappensBefore cfg tr j k) : HappensBefore cfg tr i k

/-! ### Runs, fairness, named assumptions -/

/-- A turn is a reset. -/
def Turn.isReset : Turn → Bool
  | .reset _ _ => true
  | _ => false

/-- The next step is no reset. -/
abbrev State.NoReset (s : State) : Prop := s.turn.isReset = false

/-- s with what the outside decides before one step: which turn comes next, and packets the host offers after those it
already offers. -/
def State.driven (s : State) (turn : Turn) (offered : List Packet) : State :=
  { s with host := s.host ++ offered, agenda := turn :: s.agenda.tail }

/-- An infinite run: every step is a step of the machine, and before each the outside decides the turn and offers packets.
DESIGN CHOICE (log 25): R251 says nothing of how often the host offers a packet or the environment moves, so they may do so
for ever, or not at all. -/
def IsRun (r : Nat → State) (turns : Nat → Turn) (offers : Nat → List Packet) : Prop :=
  ∀ n, step ((r n).driven (turns n) (offers n)) = .next (r (n + 1))

/-- Weak fairness (R251): the scan engine steps infinitely often, and the command processor moves infinitely often while
it has a command. -/
def Fair (r : Nat → State) (turns : Nat → Turn) : Prop :=
  (∀ n, ∃ m, n ≤ m ∧ turns m = .scan) ∧
  (∀ n, (r n).cp.busy = true → ∃ m, n ≤ m ∧ (turns m = .cp ∨ turns m = .command ∨ (r m).cp.busy = false))

/-- The events of the step from s to t. -/
def newEvents (s t : State) : List Event := (t.trace.take (t.trace.length - s.trace.length)).flatten

/-- s leads to t by steps none of which is a reset or drives one of the lines (R185). -/
inductive Undriven (ids : List LineId) (s : State) : State → Prop where
  | refl : Undriven ids s s
  | snoc {t u : State} (h : Undriven ids s t) (hn : t.NoReset) (hs : step t = .next u)
      (hq : ∀ id ∈ ids, ∀ old new, .lineEv id old new ∉ newEvents t u) : Undriven ids s u

/-- The cell address lies in buffer b (R50). -/
def inBuffer (cfg : Config) (b : Bool) (a : Nat) : Prop :=
  b.toNat * (cfg.h * cfg.w) ≤ a ∧ a < (b.toNat + 1) * (cfg.h * cfg.w)

/-- A_QUIESCE of one step (R271): no cell of a buffer is written while a reader that loaded that buffer has not made its
last read. -/
def Quiesces (s t : State) : Prop :=
  ∀ a v, .cellWrite a v ∈ newEvents s t →
    (s.sc.phase = .sRd → ¬ inBuffer s.cfg s.sc.snap a) ∧ (s.txn.ao = true → ¬ inBuffer s.cfg s.txn.asnap a)

/-- The address lines of the scan engine. -/
def addressLines (cfg : Config) : List LineId := cfg.scanH.line ++ cfg.scanV.line

/-- A_DWELL of one step (R275): an address line does not change inside an iteration. -/
def Dwells (s t : State) : Prop :=
  s.sc.phase ≠ .sH → ∀ id ∈ addressLines s.cfg, t.sample id = s.sample id

/-- A step changes an address line. -/
def AddressMoves (s t : State) : Prop := ∃ id ∈ addressLines s.cfg, t.sample id ≠ s.sample id

/-- Steps b to e of a run are one whole iteration of the scan engine (R212): b is its S_H step, e the step that ends it
(S_DRV, or S_TEST out of range), and no reset cuts it short. -/
def WholeIteration (r : Nat → State) (turns : Nat → Turn) (b e : Nat) : Prop :=
  b < e ∧ turns b = .scan ∧ (r b).sc.phase = .sH ∧ turns e = .scan ∧ (r (e + 1)).sc.phase = .sH ∧
  ∀ i, b < i → i ≤ e → (r i).sc.phase ≠ .sH ∧ (turns i).isReset = false

/-- A_DWELL of a run (R275): no address line changes inside an iteration, and every address presented, the first one too,
has been held for one whole iteration when it is changed. -/
def DwellsAlong (r : Nat → State) (turns : Nat → Turn) : Prop :=
  (∀ n, Dwells (r n) (r (n + 1))) ∧
  ∀ m, AddressMoves (r m) (r (m + 1)) →
    ∃ b e, WholeIteration r turns b e ∧ e < m ∧ ∀ i, b ≤ i → i < m → ¬ AddressMoves (r i) (r (i + 1))

/-- Step e of a run drives the cell of the address presented (R275): it is an S_DRV step of the address the lines carry,
every colour line then carries its bit of the value, and the value is that of the address's cell, in the buffer loaded, at
the S_RD step before. -/
def Serves (r : Nat → State) (turns : Nat → Turn) (e : Nat) : Prop :=
  turns e = .scan ∧ (r e).sc.phase = .sDrv ∧
  (r e).sc.h = (r e).sampleAddr (r e).cfg.scanH ∧ (r e).sc.v = (r e).sampleAddr (r e).cfg.scanV ∧
  (∀ i id, (r e).cfg.scanC.line[i]? = some id → (r (e + 1)).line id = (r e).sc.val.getLsbD i) ∧
  ∃ d, d < e ∧ turns d = .scan ∧ (r d).sc.phase = .sRd ∧ (∀ i, d < i → i ≤ e → (r i).sc.phase = .sDrv) ∧
    (r e).sc.val = (r d).cell (r e).sc.snap (r e).sc.v.toNat (r e).sc.h.toNat

/-- The address lines carry the same address in both states. -/
def SameAddress (s t : State) : Prop :=
  t.sampleAddr t.cfg.scanH = s.sampleAddr s.cfg.scanH ∧ t.sampleAddr t.cfg.scanV = s.sampleAddr s.cfg.scanV

/-- The address the lines carry is one of the grid. -/
def AddressInGrid (s : State) : Prop :=
  s.cfg.inGrid (s.sampleAddr s.cfg.scanV).toNat (s.sampleAddr s.cfg.scanH).toNat = true

end Sys2Proof.Machine
end

