-- ==== Sys2Proof/Certificates/Slice0/Obligations.lean ====
section
/-! DEFINITION. The statements for the provers. The titles, the rules cited and the tiers stand in OBLIGATIONS.json.
Every statement is over any configuration a state may hold; where it needs a configuration of the hardware, or a state
that reset and steps can lead to, it takes State.Inv, which two statements below say reset has and every step keeps. -/

open Sys2Proof Sys2Proof.Machine

/-! ### Encoding -/

/-- R83, R84, R85: the decoder reads back every well-formed command with every operand. -/
def Obligations.DecodeOfEncodeIsTheCommand : Prop :=
  ∀ (cfg : Config) (i : Instr), i.WF cfg → decode cfg (encode i) = .ok i

/-- R83, R84, R85: a packet the decoder accepts is the one packet of its command, and the command is well-formed. -/
def Obligations.EncodeOfDecodeIsThePacket : Prop :=
  ∀ (cfg : Config) (p : Packet) (i : Instr), decode cfg p = .ok i → i.WF cfg ∧ encode i = p

/-- Packets written out from R83 and R85, in the reference instance. -/
def Obligations.PacketsOfTheSpecDecode : Prop :=
  decode Config.ri [0x10] = .ok .dbAopen ∧
  decode Config.ri [0x15, 0x03, 0x00, 0x05, 0x00, 0xC8] = .ok (.dbIwr 3 5 200) ∧
  decode Config.ri [0x24, 0x00, 0xA5, 0x3C] = .ok (.srWritex 0 [0xA5, 0x3C]) ∧
  decode Config.ri [0x28, 0x00] = .ok (.cgLatchall 0) ∧
  decode Config.ri [0x31, 0x00, 0x00, 0x05, 0x00, 0x03, 0x00, 0xC8] =
    .ok (.pbWritex 0 [0x00, 0x05, 0x00, 0x03, 0x00, 0xC8]) ∧
  decode Config.ri [0x43, 0x00] = .ok (.brRd32 0) ∧
  decode Config.ri [0x53, 0x00, 0x78, 0x56, 0x34, 0x12] = .ok (.bwWr32 0 0x12345678) ∧
  decode Config.ri [0x60, 0x05, 0x00, 0x03, 0x00, 0xC8] = .ok (.pxsWrite 5 3 200) ∧
  decode Config.ri [0x70, 0x02] = .ok (.sysRdreg 2)

/-- R87. -/
def Obligations.UnlistedOpcodesAreIllegal : Prop :=
  (∀ (cfg : Config) (op : Byte) (bs : Packet),
    (op ≤ 0x0F ∨ (0x18 ≤ op ∧ op ≤ 0x1F) ∨ (0x25 ≤ op ∧ op ≤ 0x27) ∨ (0x2A ≤ op ∧ op ≤ 0x2F) ∨
      (0x32 ≤ op ∧ op ≤ 0x3F) ∨ (0x44 ≤ op ∧ op ≤ 0x4F) ∨ (0x54 ≤ op ∧ op ≤ 0x5F) ∨ (0x63 ≤ op ∧ op ≤ 0x67) ∨
      (0x6C ≤ op ∧ op ≤ 0x6F) ∨ 0x71 ≤ op) → decode cfg (op :: bs) = .error .illegalCommand) ∧
  ∀ cfg : Config, decode cfg [] = .error .illegalCommand

/-- R86, R88 checks (2) to (4): the unit byte, the unit, the length, the register number, in that order. -/
def Obligations.PacketChecksComeInOrder : Prop :=
  ∀ (cfg : Config) (op : Byte) (bs : Packet) (f : Format), formatOf op.toNat = some f →
    (unitCount cfg op.toNat ≠ none → bs = [] → decode cfg (op :: bs) = .error .illegalCommand) ∧
    (∀ n u rest, unitCount cfg op.toNat = some n → bs = u :: rest → n ≤ u.toNat →
      decode cfg (op :: bs) = .error .badUnit) ∧
    (∀ n u rest, unitCount cfg op.toNat = some n → bs = u :: rest → u.toNat < n →
      bs.length + 1 ≠ f.len cfg op.toNat u → decode cfg (op :: bs) = .error .illegalCommand) ∧
    (∀ u, unitCount cfg op.toNat = none → bs.length + 1 ≠ f.len cfg op.toNat u →
      decode cfg (op :: bs) = .error .illegalCommand) ∧
    (∀ r, op = 0x70 → bs = [r] → 3 < r.toNat → decode cfg (op :: bs) = .error .illegalCommand)

/-! ### The step and the command processor -/

/-- R80: when the command processor moves until it is idle, is idle and not halted, and the packet offered decodes, the
step is the meaning of the command in the state in which the packet has been accepted; where the packet does not decode,
it is the fault of its cause in that state. -/
def Obligations.StepRunsTheDecodedCommand : Prop :=
  ∀ (s : State) (p : Packet) (rest : List Packet),
    s.turn = .command → s.cp.busy = false → s.fault.v = false → s.host = p :: rest →
    (∀ i, decode s.cfg p = .ok i → step s = exec i (s.begun.accept p rest)) ∧
    (∀ c, decode s.cfg p = .error c → step s = .next ((s.begun.accept p rest).raiseFault c))

/-- The packet that State.withFetchWord offers is what the next step runs, from any state (log 15). -/
def Obligations.FetchedWordRuns : Prop :=
  ∀ (s : State) (nbits w : Nat) (i : Instr), decode s.cfg (wordPacket s.cfg nbits w) = .ok i →
    step (s.withFetchWord nbits w) =
      exec i (({ s with cp := Cp.idle, fault := { v := false, cause := 0 }, moment := s.moment + 1 } : State).accept
        (wordPacket s.cfg nbits w) s.host)

/-- R22, R250 (log 7): from a packet just accepted, single steps of the command processor lead to the state the meaning
of the command answers; until then the command is in execution, and it takes no more steps than its step list has. -/
def Obligations.SingleStepsReachWhatExecAnswers : Prop :=
  ∀ (s t : State) (i : Instr), s.cp.busy = true → s.cp.pos = 0 → decode s.cfg s.cp.cmd = .ok i → exec i s = .next t →
    ∃ n, 1 ≤ n ∧ n ≤ (commandSteps s.cfg i).length ∧ cpStep^[n] s = t ∧
      (∀ m, m < n → (cpStep^[m] s).cp.busy = true) ∧ t.cp.busy = false

/-- R22, R80: a command whose checks pass runs to its end and responds, and leaves FAULT, the scan engine, the inputs and
what the outside holds as they are. -/
def Obligations.EveryCheckedCommandResponds : Prop :=
  ∀ (i : Instr) (s : State), commandFault i s = none →
    ∃ t bs, exec i s = .next t ∧ t.trace.head? = some [.resp bs] ∧ t.cp = Cp.idle ∧ t.cfg = s.cfg ∧
      t.fault = s.fault ∧ t.sc = s.sc ∧ t.inputs = s.inputs ∧ t.host = s.host ∧ t.agenda = s.agenda ∧
      t.moment = s.moment

/-! ### Faults and diagnostics -/

/-- R242: the entry of a fault, of a command and of a packet that does not decode; after it no packet is accepted and
nothing of the command processor, the registers, the cells or the devices changes, whatever steps follow but a reset;
the scan engine goes on as it would have. -/
def Obligations.FaultEntryHaltsTheProcessor : Prop :=
  (∀ (i : Instr) (s : State) (c : Cause), commandFault i s = some c → exec i s = .next { s with
    fault := { v := true, cause := c.code }, cp := Cp.idle, trace := [.faultEv c] :: s.trace }) ∧
  (∀ (s : State) (c : Cause), s.cp.busy = true → decode s.cfg s.cp.cmd = .error c → cpStep s = { s with
    fault := { v := true, cause := c.code }, cp := Cp.idle, trace := [.faultEv c] :: s.trace }) ∧
  (∀ s t : State, s.fault.v = true → s.cp.busy = false → s.NoReset → step s = .next t →
    t.fault = s.fault ∧ t.cp = s.cp ∧ t.host = s.host ∧ t.fb = s.fb ∧ t.sel = s.sel ∧ t.diag = s.diag ∧
    t.txn = s.txn ∧ t.devs = s.devs) ∧
  ∀ (s : State) (c : Cause),
    ({ scanStep { s with fault := { v := true, cause := c.code }, cp := Cp.idle } with trace := [] } : State) =
      { scanStep s with fault := { v := true, cause := c.code }, cp := Cp.idle, trace := [] }

/-- R232, R233, R173: the width preconditions, and none for the 32-bit accessors. -/
def Obligations.WidthPreconditionsFault : Prop :=
  Cause.width8.code = 1 ∧ Cause.width16.code = 2 ∧
  ∀ (s : State) (u b : Byte) (x : Half) (y : Word),
    (u.toNat < s.cfg.readers.length →
      (8 < (s.cfg.readerAt u).n → exec (.brRd8 u) s = .next (s.raiseFault .width8)) ∧
      (16 < (s.cfg.readerAt u).n → exec (.brRd16 u) s = .next (s.raiseFault .width16)) ∧
      commandFault (.brRd32 u) s = none) ∧
    (u.toNat < s.cfg.writers.length →
      (8 < (s.cfg.writerAt u).n → exec (.bwWr8 u b) s = .next (s.raiseFault .width8)) ∧
      (16 < (s.cfg.writerAt u).n → exec (.bwWr16 u x) s = .next (s.raiseFault .width16)) ∧
      commandFault (.bwWr32 u y) s = none)

/-- R113, R238: a raw cell command with an index outside the grid. -/
def Obligations.IndexOutsideTheGridFaults : Prop :=
  Cause.index.code = 6 ∧
  ∀ (s : State) (row col : Half) (val : Byte), s.cfg.h ≤ row.toNat ∨ s.cfg.w ≤ col.toNat →
    (s.txn.ao = true → exec (.dbArd row col) s = .next (s.raiseFault .index)) ∧
    (s.txn.io = true → exec (.dbIrd row col) s = .next (s.raiseFault .index)) ∧
    (s.txn.io = true → exec (.dbIwr row col val) s = .next (s.raiseFault .index))

/-- R112: the transaction-state checks, whatever the other operands; a command has one only in these cases. -/
def Obligations.TransactionStateIsRequired : Prop :=
  (∀ (s : State) (row col h v : Half) (val color : Byte),
    (s.txn.ao = true → exec .dbAopen s = .next (s.raiseFault .protocol)) ∧
    (s.txn.ao = false → exec (.dbArd row col) s = .next (s.raiseFault .protocol)) ∧
    (s.txn.ao = false → exec .dbAclose s = .next (s.raiseFault .protocol)) ∧
    (s.txn.io = true → exec .dbIopen s = .next (s.raiseFault .protocol)) ∧
    (s.txn.io = false → exec (.dbIrd row col) s = .next (s.raiseFault .protocol)) ∧
    (s.txn.io = false → exec (.dbIwr row col val) s = .next (s.raiseFault .protocol)) ∧
    (s.txn.io = false → exec .dbIclose s = .next (s.raiseFault .protocol)) ∧
    (s.txn.io = true → exec .dbSwap s = .next (s.raiseFault .protocol)) ∧
    (s.txn.io = true → exec (.pxbWrite h v color) s = .next (s.raiseFault .protocol)) ∧
    (s.txn.io = true → exec .pxbPresent s = .next (s.raiseFault .protocol))) ∧
  ∀ (i : Instr) (s : State), commandFault i s = some .protocol →
    (s.txn.ao = true ∧ i = .dbAopen) ∨ (s.txn.ao = false ∧ ((∃ r c, i = .dbArd r c) ∨ i = .dbAclose)) ∨
    (s.txn.io = true ∧ (i = .dbIopen ∨ i = .dbSwap ∨ (∃ h v k, i = .pxbWrite h v k) ∨ i = .pxbPresent)) ∨
    (s.txn.io = false ∧ ((∃ r c, i = .dbIrd r c) ∨ (∃ r c v, i = .dbIwr r c v) ∨ i = .dbIclose))

/-- R86, R88, R235, R192: an operand that no component or length allows takes its fault before anything else; without a
bank each command of the shift-register-driven writer faults. -/
def Obligations.BadOperandsFault : Prop :=
  (∀ (i : Instr) (s : State) (c : Cause), i.operandFault s.cfg = some c → exec i s = .next (s.raiseFault c)) ∧
  ∀ (s : State) (h v : Half) (color : Byte), s.cfg.pxsBank = none →
    exec (.pxsWrite h v color) s = .next (s.raiseFault .badUnit) ∧
    exec .pxsArange s = .next (s.raiseFault .badUnit) ∧ exec .pxsCrange s = .next (s.raiseFault .badUnit)

/-- R139: a latch or clear whose line the component does not own. -/
def Obligations.AbsentLineIsANoOpWithDiagnostic : Prop :=
  ∀ (s : State) (u : Byte),
    (u.toNat < s.cfg.chains.length → (s.cfg.chainAt u).latch = none →
      exec (.srLatch u) s = .next { s with
        diag := { s.diag with noLatch := true }, cp := Cp.idle, trace := [.resp []] :: [.diag .noLatch] :: s.trace }) ∧
    (u.toNat < s.cfg.chains.length → (s.cfg.chainAt u).clear = none →
      exec (.srClear u) s = .next { s with
        diag := { s.diag with noClear := true }, cp := Cp.idle, trace := [.resp []] :: [.diag .noClear] :: s.trace }) ∧
    (u.toNat < s.cfg.groups.length → (s.cfg.groupAt u.toNat).latch = none →
      exec (.cgLatchall u) s = .next { s with
        diag := { s.diag with noLatch := true }, cp := Cp.idle, trace := [.resp []] :: [.diag .noLatch] :: s.trace }) ∧
    (u.toNat < s.cfg.groups.length → (s.cfg.groupAt u.toNat).clear = none →
      exec (.cgClearall u) s = .next { s with
        diag := { s.diag with noClear := true }, cp := Cp.idle, trace := [.resp []] :: [.diag .noClear] :: s.trace })

/-- R26, R221: no step but a reset clears a bit of DIAG. -/
def Obligations.DiagnosticsAreSticky : Prop :=
  ∀ s t : State, s.NoReset → step s = .next t →
    (s.diag.noLatch = true → t.diag.noLatch = true) ∧ (s.diag.noClear = true → t.diag.noClear = true) ∧
    (s.diag.oor = true → t.diag.oor = true)

/-! ### The DoubleBuffer -/

/-- R114, R116: the reader transaction. That the two writes of DB.ACLOSE are one step, one empty group of the trace, is the
model's (DEDUCED, log 12). -/
def Obligations.ReaderTransactionOpensAndCloses : Prop :=
  ∀ s : State,
    (s.txn.ao = false → exec .dbAopen s = .next { s with
      txn := { s.txn with ao := true, asnap := s.sel }, cp := Cp.idle,
      trace := [.resp []] :: [.selLoad .host s.sel] :: s.trace }) ∧
    (s.txn.ao = true → exec .dbAclose s = .next { s with
      txn := { s.txn with ao := false, asnap := false }, cp := Cp.idle, trace := [.resp []] :: [] :: s.trace }) ∧
    (s.txn.ao = true → exec .dbAopen s = .next (s.raiseFault .protocol)) ∧
    (s.txn.ao = false → exec .dbAclose s = .next (s.raiseFault .protocol))

/-- R117, R122: the writer transaction. That the load and the writes of DB.IOPEN, and the writes of DB.ICLOSE, are one step
each is the model's (DEDUCED, log 12), and so is that the plain load traces no SelLoad (DEDUCED, log 11). -/
def Obligations.WriterTransactionOpensAndCloses : Prop :=
  ∀ s : State,
    (s.txn.io = false → exec .dbIopen s = .next { s with
      txn := { s.txn with io := true, wsnap := !s.sel }, cp := Cp.idle, trace := [.resp []] :: [] :: s.trace }) ∧
    (s.txn.io = true → exec .dbIclose s = .next { s with
      txn := { s.txn with io := false, wsnap := false }, cp := Cp.idle, trace := [.resp []] :: [] :: s.trace }) ∧
    (s.txn.io = true → exec .dbIopen s = .next (s.raiseFault .protocol)) ∧
    (s.txn.io = false → exec .dbIclose s = .next (s.raiseFault .protocol))

/-- R115, R118: the two cell reads return the cell of the buffer their transaction's snapshot names, and change nothing.
That DB.IRD traces a CellRead is the model's (DEDUCED from R16, log 11). -/
def Obligations.CellReadsReturnTheSnapshotsCell : Prop :=
  ∀ (s : State) (row col : Half), row.toNat < s.cfg.h → col.toNat < s.cfg.w →
    (s.txn.ao = true → exec (.dbArd row col) s = .next { s with
      cp := Cp.idle,
      trace := [.resp [s.cell s.txn.asnap row.toNat col.toNat]] ::
        [.cellRead .host (s.cfg.cellAddr s.txn.asnap row.toNat col.toNat) (s.cell s.txn.asnap row.toNat col.toNat)] ::
        s.trace }) ∧
    (s.txn.io = true → exec (.dbIrd row col) s = .next { s with
      cp := Cp.idle,
      trace := [.resp [s.cell s.txn.wsnap row.toNat col.toNat]] ::
        [.cellRead .host (s.cfg.cellAddr s.txn.wsnap row.toNat col.toNat) (s.cell s.txn.wsnap row.toNat col.toNat)] ::
        s.trace })

/-- R121: DB.IWR writes one cell of the writer snapshot's buffer and nothing else. -/
def Obligations.InactiveWriteChangesOneCell : Prop :=
  ∀ (s : State) (row col : Half) (val : Byte), Memory.wf s.cfg s.fb → s.txn.io = true →
    row.toNat < s.cfg.h → col.toNat < s.cfg.w →
    ∃ t, exec (.dbIwr row col val) s = .next t ∧
      t = { s with
        fb := t.fb, cp := Cp.idle,
        trace := [.resp []] :: [.cellWrite (s.cfg.cellAddr s.txn.wsnap row.toNat col.toNat) val] :: s.trace } ∧
      ∀ a, t.readCell a = if a = s.cfg.cellAddr s.txn.wsnap row.toNat col.toNat then val else s.readCell a

/-- R119, R200: DB.SWAP and PXB.PRESENT complement SEL.A by one store, and move no cell. -/
def Obligations.SwapAndPresentComplementTheSelector : Prop :=
  ∀ s : State, s.txn.io = false →
    exec .dbSwap s = .next { s with
      sel := !s.sel, cp := Cp.idle, trace := [.resp []] :: [.selStore (!s.sel)] :: s.trace } ∧
    exec .pxbPresent s = .next { s with
      sel := !s.sel, cp := Cp.idle, trace := [.resp []] :: [.selStore (!s.sel)] :: s.trace }

/-- R25: a command that changes the selector is DB.SWAP or PXB.PRESENT, and a step that changes it, other than a reset,
stores its new value. -/
def Obligations.OnlySwapMovesTheSelector : Prop :=
  (∀ (i : Instr) (s t : State), exec i s = .next t → t.sel ≠ s.sel → i = .dbSwap ∨ i = .pxbPresent) ∧
  ∀ s t : State, s.NoReset → step s = .next t → t.sel ≠ s.sel → .selStore t.sel ∈ newEvents s t

/-! ### Shift registers -/

/-- R140, R132, R273: SR.SHIFTB shifts eight bits, most significant first, into the chain's device; every other device on
the clock takes in eight copies of its own serial level; the clock is back at its idle level and the serial line keeps
the last bit; 24 line steps. -/
def Obligations.ShiftByteLoadsEightBits : Prop :=
  ∀ (s : State) (u b : Byte), s.Inv → s.ControlIdle → u.toNat < s.cfg.chains.length →
    ∃ t, exec (.srShiftb u b) s = .next t ∧
      t = { s with
        lines := t.lines, cp := Cp.idle, trace := t.trace,
        devs := s.devs.map (s.loaded (s.cfg.chainAt u).clk 8 fun id =>
          if id = (s.cfg.chainAt u).ser then b.toNat else s.heldBits 8 id) } ∧
      (∀ id, t.line id = if id = (s.cfg.chainAt u).ser then b.getLsbD 0 else s.line id) ∧
      (∀ a, t.readCell a = s.readCell a) ∧ t.trace.length = s.trace.length + 25

/-- R141, R135: SR.SHIFTX leaves the chain's device holding exactly the frame, read big-endian, whatever it held; OUT
stays; 24·N line steps. -/
def Obligations.ShiftFrameLoadsTheFrame : Prop :=
  ∀ (s : State) (u : Byte) (data : List Byte), s.Inv → s.ControlIdle → u.toNat < s.cfg.chains.length →
    data.length = (s.cfg.chainAt u).n →
    ∃ t, exec (.srShiftx u data) s = .next t ∧
      t = { s with
        lines := t.lines, cp := Cp.idle, trace := t.trace,
        devs := s.devs.map (s.loaded (s.cfg.chainAt u).clk (8 * (s.cfg.chainAt u).n) fun id =>
          if id = (s.cfg.chainAt u).ser then frameValue data else s.heldBits (8 * (s.cfg.chainAt u).n) id) } ∧
      (∀ d ∈ t.devs, d.id = .chain u.toNat → d.sr = frameValue data) ∧
      (∀ id, t.line id = if id = (s.cfg.chainAt u).ser then txBit data (8 * (s.cfg.chainAt u).n - 1) else s.line id) ∧
      (∀ a, t.readCell a = s.readCell a) ∧ t.trace.length = s.trace.length + 24 * (s.cfg.chainAt u).n + 1

/-- R142, R145, R133: one latch pulse commits every device wired to the line, and nothing else changes. -/
def Obligations.LatchPulseCommits : Prop :=
  ∀ (s : State) (u : Byte) (L : LineId), s.Inv → s.ControlIdle →
    (u.toNat < s.cfg.chains.length → (s.cfg.chainAt u).latch = some L →
      ∃ t, exec (.srLatch u) s = .next t ∧
        t = { s with lines := t.lines, cp := Cp.idle, trace := t.trace, devs := s.devs.map (s.committed L) } ∧
        (∀ id, t.line id = s.line id) ∧ (∀ a, t.readCell a = s.readCell a) ∧ t.trace.length = s.trace.length + 3) ∧
    (u.toNat < s.cfg.groups.length → (s.cfg.groupAt u.toNat).latch = some L →
      ∃ t, exec (.cgLatchall u) s = .next t ∧
        t = { s with lines := t.lines, cp := Cp.idle, trace := t.trace, devs := s.devs.map (s.committed L) } ∧
        (∀ id, t.line id = s.line id) ∧ (∀ a, t.readCell a = s.readCell a) ∧ t.trace.length = s.trace.length + 3)

/-- R143, R146, R134: one clear pulse empties the serial register of every device wired to the line; OUT stays, and
nothing else changes. -/
def Obligations.ClearPulseEmpties : Prop :=
  ∀ (s : State) (u : Byte) (L : LineId), s.Inv → s.ControlIdle →
    (u.toNat < s.cfg.chains.length → (s.cfg.chainAt u).clear = some L →
      ∃ t, exec (.srClear u) s = .next t ∧
        t = { s with lines := t.lines, cp := Cp.idle, trace := t.trace, devs := s.devs.map (s.emptied L) } ∧
        (∀ id, t.line id = s.line id) ∧ (∀ a, t.readCell a = s.readCell a) ∧ t.trace.length = s.trace.length + 3) ∧
    (u.toNat < s.cfg.groups.length → (s.cfg.groupAt u.toNat).clear = some L →
      ∃ t, exec (.cgClearall u) s = .next t ∧
        t = { s with lines := t.lines, cp := Cp.idle, trace := t.trace, devs := s.devs.map (s.emptied L) } ∧
        (∀ id, t.line id = s.line id) ∧ (∀ a, t.readCell a = s.readCell a) ∧ t.trace.length = s.trace.length + 3)

/-- R144: SR.WRITEX is the shift and then the chain's own latch; without one, the shift and the diagnostic. -/
def Obligations.WriteExactShiftsThenLatches : Prop :=
  ∀ (s : State) (u : Byte) (data : List Byte), s.Inv → s.ControlIdle → u.toNat < s.cfg.chains.length →
    data.length = (s.cfg.chainAt u).n →
    ∃ t, exec (.srWritex u data) s = .next t ∧
      (∀ id, t.line id = if id = (s.cfg.chainAt u).ser then txBit data (8 * (s.cfg.chainAt u).n - 1) else s.line id) ∧
      (∀ a, t.readCell a = s.readCell a) ∧
      (∀ L, (s.cfg.chainAt u).latch = some L →
        t = { s with
          lines := t.lines, cp := Cp.idle, trace := t.trace,
          devs := s.devs.map fun d => s.committed L (s.loaded (s.cfg.chainAt u).clk (8 * (s.cfg.chainAt u).n) (fun id =>
            if id = (s.cfg.chainAt u).ser then frameValue data else s.heldBits (8 * (s.cfg.chainAt u).n) id) d) } ∧
        t.trace.length = s.trace.length + 24 * (s.cfg.chainAt u).n + 3) ∧
      ((s.cfg.chainAt u).latch = none →
        t = { s with
          lines := t.lines, cp := Cp.idle, trace := t.trace, diag := { s.diag with noLatch := true },
          devs := s.devs.map (s.loaded (s.cfg.chainAt u).clk (8 * (s.cfg.chainAt u).n) fun id =>
            if id = (s.cfg.chainAt u).ser then frameValue data else s.heldBits (8 * (s.cfg.chainAt u).n) id) } ∧
        ∃ ticks, ticks.length = 24 * (s.cfg.chainAt u).n ∧
          t.trace = [.resp []] :: [.diag .noLatch] :: ticks ++ s.trace)

/-- R135, R148(a): after SR.WRITEX on a chain that owns its latch, chip N−1−j outputs frame[j]; the far-end chip outputs
the first byte. -/
def Obligations.FarEndChipShowsTheFirstByte : Prop :=
  ∀ (s : State) (u : Byte) (data : List Byte) (L : LineId), s.Inv → s.ControlIdle → u.toNat < s.cfg.chains.length →
    data.length = (s.cfg.chainAt u).n → (s.cfg.chainAt u).latch = some L →
    ∃ t, exec (.srWritex u data) s = .next t ∧
      ∀ j, j < (s.cfg.chainAt u).n →
        t.chipValue (.chain u.toNat) ((s.cfg.chainAt u).n - 1 - j) = data.getD j 0

/-! ### Parallel banks -/

/-- R161, R162: PB.SHIFTL loads every lane's frame in 8·N ticks of the one clock, whatever the number of lanes; chains
on that clock take in copies of their own serial level. -/
def Obligations.BankShiftLoadsEveryLane : Prop :=
  ∀ (s : State) (u : Byte) (data : List Byte), s.Inv → s.ControlIdle → u.toNat < s.cfg.banks.length →
    data.length = s.cfg.bankLen u →
    let b := s.cfg.bankAt u.toNat
    let frames := laneFrames b.lanes b.n data
    ∃ t, exec (.pbShiftl u data) s = .next t ∧
      t = { s with
        lines := t.lines, cp := Cp.idle, trace := t.trace,
        devs := s.devs.map (s.loaded (s.cfg.groupAt b.group).clk (8 * b.n) (s.laneSent b frames)) } ∧
      (∀ d ∈ t.devs, ∀ l, d.id = .lane u.toNat l → d.sr = frameValue ((data.drop (l * b.n)).take b.n)) ∧
      (∀ id, t.line id = s.lineAfterShift b frames id) ∧
      (∀ a, t.readCell a = s.readCell a) ∧ t.trace.length = s.trace.length + 24 * b.n + 1

/-- R163: PB.WRITEX is the shift and then one pulse of the group's latch; without one, the shift and the diagnostic. -/
def Obligations.BankWriteShiftsThenLatches : Prop :=
  ∀ (s : State) (u : Byte) (data : List Byte), s.Inv → s.ControlIdle → u.toNat < s.cfg.banks.length →
    data.length = s.cfg.bankLen u →
    let b := s.cfg.bankAt u.toNat
    let frames := laneFrames b.lanes b.n data
    ∃ t, exec (.pbWritex u data) s = .next t ∧
      (∀ id, t.line id = s.lineAfterShift b frames id) ∧ (∀ a, t.readCell a = s.readCell a) ∧
      (∀ L, (s.cfg.groupAt b.group).latch = some L →
        t = { s with
          lines := t.lines, cp := Cp.idle, trace := t.trace,
          devs := s.devs.map fun d => s.committed L
            (s.loaded (s.cfg.groupAt b.group).clk (8 * b.n) (s.laneSent b frames) d) } ∧
        (∀ d ∈ t.devs, ∀ l, d.id = .lane u.toNat l → d.out = some (frameValue ((data.drop (l * b.n)).take b.n))) ∧
        t.trace.length = s.trace.length + 24 * b.n + 3) ∧
      ((s.cfg.groupAt b.group).latch = none →
        t = { s with
          lines := t.lines, cp := Cp.idle, trace := t.trace, diag := { s.diag with noLatch := true },
          devs := s.devs.map (s.loaded (s.cfg.groupAt b.group).clk (8 * b.n) (s.laneSent b frames)) } ∧
        ∃ ticks, ticks.length = 24 * b.n ∧ t.trace = [.resp []] :: [.diag .noLatch] :: ticks ++ s.trace)

/-- R164, R133: at every step of the command processor the outputs of a bank's lanes either all stay, or all become what
the lanes' serial registers hold. -/
def Obligations.LanesCommitTogether : Prop :=
  ∀ (s : State) (k : Nat), s.Inv →
    (∀ l, (s.devs.find? fun d => d.id = .lane k l).map Device.out =
      ((cpStep s).devs.find? fun d => d.id = .lane k l).map Device.out) ∨
    (∀ l, (s.devs.find? fun d => d.id = .lane k l).map (fun d => some d.sr) =
      ((cpStep s).devs.find? fun d => d.id = .lane k l).map Device.out)

/-- R133, R148(b): a step of the machine, other than a reset and other than a whole command, that changes a device's
OUT is a latch of it, and OUT becomes SR. -/
def Obligations.OutputsMoveOnlyAtALatch : Prop :=
  ∀ s t : State, s.Inv → s.NoReset → s.turn ≠ .command → step s = .next t →
    t.devs.length = s.devs.length ∧
    ∀ (j : Nat) (d e : Device), s.devs[j]? = some d → t.devs[j]? = some e → e.out ≠ d.out →
      e.out = some d.sr ∧ .devLatch d.id ∈ newEvents s t

/-! ### Parallel buses -/

/-- R171, R174, R175, R176: the reads sample every line of the bus at one instant and change nothing. -/
def Obligations.BusReadsReturnTheLevels : Prop :=
  ∀ (s : State) (u : Byte), u.toNat < s.cfg.readers.length →
    let ids := (s.cfg.readerAt u).line
    let a := ids.map s.sample
    exec (.brRdbits u) s = .next { s with
      cp := Cp.idle, trace := [.resp (packBytes a)] :: [.busSample ids a] :: s.trace } ∧
    (ids.length ≤ 8 → exec (.brRd8 u) s = .next { s with
      cp := Cp.idle, trace := [.resp [BitVec.ofNat 8 (pack a)]] :: [.busSample ids a] :: s.trace }) ∧
    (ids.length ≤ 16 → exec (.brRd16 u) s = .next { s with
      cp := Cp.idle, trace := [.resp (bytesLE 2 (pack a))] :: [.busSample ids a] :: s.trace }) ∧
    exec (.brRd32 u) s = .next { s with
      cp := Cp.idle, trace := [.resp (bytesLE 4 (pack (a.take 32)))] :: [.busSample ids a] :: s.trace }

/-- R178, R181, R182, R183, R184: the writes drive each line with its bit in one step; BW.WR32 leaves lines 32 and above
as they are; no other line and nothing else changes. -/
def Obligations.BusWritesDriveTheLines : Prop :=
  ∀ (s : State) (u b : Byte) (x : Half) (y : Word) (data : List Byte), s.Inv → u.toNat < s.cfg.writers.length →
    let ids := (s.cfg.writerAt u).line
    (data.length = byteCount ids.length → ∃ t g, exec (.bwWrbits u data) s = .next t ∧
      t = { s with lines := t.lines, cp := Cp.idle, trace := [.resp []] :: g :: s.trace } ∧
      (∀ i id, ids[i]? = some id → t.line id = (data.getD (i / 8) 0).getLsbD (i % 8)) ∧
      (∀ id, id ∉ ids → t.line id = s.line id)) ∧
    (ids.length ≤ 8 → ∃ t g, exec (.bwWr8 u b) s = .next t ∧
      t = { s with lines := t.lines, cp := Cp.idle, trace := [.resp []] :: g :: s.trace } ∧
      (∀ i id, ids[i]? = some id → t.line id = b.getLsbD i) ∧ (∀ id, id ∉ ids → t.line id = s.line id)) ∧
    (ids.length ≤ 16 → ∃ t g, exec (.bwWr16 u x) s = .next t ∧
      t = { s with lines := t.lines, cp := Cp.idle, trace := [.resp []] :: g :: s.trace } ∧
      (∀ i id, ids[i]? = some id → t.line id = x.getLsbD i) ∧ (∀ id, id ∉ ids → t.line id = s.line id)) ∧
    (∃ t g, exec (.bwWr32 u y) s = .next t ∧
      t = { s with lines := t.lines, cp := Cp.idle, trace := [.resp []] :: g :: s.trace } ∧
      (∀ i id, ids[i]? = some id → t.line id = if i < 32 then y.getLsbD i else s.line id) ∧
      (∀ id, id ∉ ids → t.line id = s.line id))

/-- R185: a value written on a loopback pair reads back as its value modulo 2^N, whatever commands and steps of the agents
lie between that drive no line of the pair. -/
def Obligations.LoopbackReadsBackTheValue : Prop :=
  ∀ (s : State) (u k b : Byte) (x : Half) (y : Word), s.Inv → u.toNat < s.cfg.writers.length →
    k.toNat < s.cfg.readers.length → s.cfg.writerAt u = s.cfg.readerAt k →
    let ids := (s.cfg.writerAt u).line
    let n := ids.length
    (n ≤ 8 → ∃ t, exec (.bwWr8 u b) s = .next t ∧ ∀ q, Undriven ids t q →
      ∃ r, exec (.brRd8 k) q = .next r ∧ r.trace.head? = some [.resp (bytesLE 1 (b.toNat % 2 ^ n))]) ∧
    (n ≤ 16 → ∃ t, exec (.bwWr16 u x) s = .next t ∧ ∀ q, Undriven ids t q →
      ∃ r, exec (.brRd16 k) q = .next r ∧ r.trace.head? = some [.resp (bytesLE 2 (x.toNat % 2 ^ n))]) ∧
    (∃ t, exec (.bwWr32 u y) s = .next t ∧ ∀ q, Undriven ids t q →
      ∃ r, exec (.brRd32 k) q = .next r ∧ r.trace.head? = some [.resp (bytesLE 4 (y.toNat % 2 ^ min n 32))])

/-! ### Pixel writers -/

/-- R191: a write out of range sets DIAG.OOR, changes nothing else and completes, the same in both backends. -/
def Obligations.PixelOutOfRangeIsRejected : Prop :=
  ∀ (s : State) (h v : Half) (color : Byte),
    (s.cfg.pxsBank.isSome = true →
      (h < s.cfg.pxsCmin ∨ s.cfg.pxsCmax < h ∨ v < s.cfg.pxsRmin ∨ s.cfg.pxsRmax < v ∨
        color < s.cfg.pxsKmin ∨ s.cfg.pxsKmax < color) →
      exec (.pxsWrite h v color) s = .next { s with
        diag := { s.diag with oor := true }, cp := Cp.idle, trace := [.resp []] :: [.diag .oor] :: s.trace }) ∧
    (s.txn.io = false → 1 ≤ s.cfg.w → 1 ≤ s.cfg.h →
      (s.cfg.w ≤ h.toNat ∨ s.cfg.h ≤ v.toNat ∨ color < s.cfg.pxbKmin ∨ s.cfg.pxbKmax < color) →
      exec (.pxbWrite h v color) s = .next { s with
        diag := { s.diag with oor := true }, cp := Cp.idle, trace := [.resp []] :: [.diag .oor] :: s.trace })

/-- R197: PXB.WRITE in range writes row v, column h of the inactive buffer and nothing else. That it traces
a CellWrite, and no SelLoad for its plain load, is the model's (DEDUCED from R16, log 11). -/
def Obligations.BusScanPixelWritesTheInactiveCell : Prop :=
  ∀ (s : State) (h v : Half) (color : Byte), Memory.wf s.cfg s.fb → s.txn.io = false →
    h.toNat < s.cfg.w → v.toNat < s.cfg.h → s.cfg.pxbKmin ≤ color → color ≤ s.cfg.pxbKmax →
    ∃ t, exec (.pxbWrite h v color) s = .next t ∧
      t = { s with
        fb := t.fb, cp := Cp.idle,
        trace := [.resp []] :: [.cellWrite (s.cfg.cellAddr (!s.sel) v.toNat h.toNat) color] :: s.trace } ∧
      ∀ a, t.readCell a = if a = s.cfg.cellAddr (!s.sel) v.toNat h.toNat then color else s.readCell a

/-- R193, R97, R98, R201: PXS.WRITE in range puts h, v and color on the outputs of lanes 0, 1 and 2 where the bank's group
has a latch line; without one it shifts and gives the diagnostic. No cell changes. -/
def Obligations.ShiftRegisterPixelCommitsItsFields : Prop :=
  ∀ (s : State) (h v : Half) (color : Byte) (k : Nat), s.Inv → s.ControlIdle → s.cfg.pxsBank = some k →
    s.cfg.pxsCmin ≤ h → h ≤ s.cfg.pxsCmax → s.cfg.pxsRmin ≤ v → v ≤ s.cfg.pxsRmax →
    s.cfg.pxsKmin ≤ color → color ≤ s.cfg.pxsKmax →
    let b := s.cfg.bankAt k
    let frames := [field h.toNat b.n, field v.toNat b.n, field color.toNat b.n]
    ∃ t, exec (.pxsWrite h v color) s = .next t ∧
      (∀ id, t.line id = s.lineAfterShift b frames id) ∧ (∀ a, t.readCell a = s.readCell a) ∧
      (∀ L, (s.cfg.groupAt b.group).latch = some L →
        t = { s with
          lines := t.lines, cp := Cp.idle, trace := t.trace,
          devs := s.devs.map fun d => s.committed L
            (s.loaded (s.cfg.groupAt b.group).clk (8 * b.n) (s.laneSent b frames) d) } ∧
        t.pins (.lane k 0) = h.toNat ∧ t.pins (.lane k 1) = v.toNat ∧ t.pins (.lane k 2) = color.toNat ∧
        t.trace.length = s.trace.length + 24 * b.n + 3) ∧
      ((s.cfg.groupAt b.group).latch = none →
        t = { s with
          lines := t.lines, cp := Cp.idle, trace := t.trace, diag := { s.diag with noLatch := true },
          devs := s.devs.map (s.loaded (s.cfg.groupAt b.group).clk (8 * b.n) (s.laneSent b frames)) } ∧
        ∃ ticks, ticks.length = 24 * b.n ∧ t.trace = [.resp []] :: [.diag .noLatch] :: ticks ++ s.trace)

/-- R194, R195, R198, R199, R99, R100: the domains, rows first, each minimum then maximum. -/
def Obligations.DomainsAreAnswered : Prop :=
  ∀ s : State,
    (s.cfg.pxsBank.isSome = true →
      exec .pxsArange s = .next { s with
        cp := Cp.idle,
        trace := [.resp (bytesLE 2 s.cfg.pxsRmin.toNat ++ bytesLE 2 s.cfg.pxsRmax.toNat ++
          bytesLE 2 s.cfg.pxsCmin.toNat ++ bytesLE 2 s.cfg.pxsCmax.toNat)] :: s.trace } ∧
      exec .pxsCrange s = .next { s with
        cp := Cp.idle, trace := [.resp [s.cfg.pxsKmin, s.cfg.pxsKmax]] :: s.trace }) ∧
    (s.cfg.pxsBank = none → exec .pxsArange s = .next (s.raiseFault .badUnit) ∧
      exec .pxsCrange s = .next (s.raiseFault .badUnit)) ∧
    exec .pxbArange s = .next { s with
      cp := Cp.idle,
      trace := [.resp (bytesLE 2 0 ++ bytesLE 2 (s.cfg.h - 1) ++ bytesLE 2 0 ++ bytesLE 2 (s.cfg.w - 1))] :: s.trace } ∧
    exec .pxbCrange s = .next { s with
      cp := Cp.idle, trace := [.resp [s.cfg.pxbKmin, s.cfg.pxbKmax]] :: s.trace }

/-- R126: a pixel written through the bus-scan writer is not in the active buffer until the present, and is after it. -/
def Obligations.PixelIsActiveOnlyAfterThePresent : Prop :=
  ∀ (s : State) (h v : Half) (color : Byte), s.Inv → s.txn.io = false →
    h.toNat < s.cfg.w → v.toNat < s.cfg.h → s.cfg.pxbKmin ≤ color → color ≤ s.cfg.pxbKmax →
    ∃ t u, exec (.pxbWrite h v color) s = .next t ∧ exec .pxbPresent t = .next u ∧
      (∀ r c, s.cfg.inGrid r c = true → t.cell t.sel r c = s.cell s.sel r c) ∧ t.sel = s.sel ∧
      u.sel = !s.sel ∧ u.cell u.sel v.toNat h.toNat = color

/-! ### The status registers -/

/-- R220, R24 to R29: SYS.RDREG responds with the register's named bits, the others 0, and changes nothing. -/
def Obligations.StatusRegistersAreRead : Prop :=
  ∀ s : State,
    (∀ reg : Byte, reg.toNat ≤ 3 → exec (.sysRdreg reg) s = .next { s with
      cp := Cp.idle, trace := [.resp [s.statusReg reg.toNat]] :: s.trace }) ∧
    (∀ reg : Byte, 3 < reg.toNat → exec (.sysRdreg reg) s = .next (s.raiseFault .illegalCommand)) ∧
    (s.statusReg 0).toNat = s.sel.toNat ∧
    (s.statusReg 1).toNat = s.diag.noLatch.toNat + 2 * s.diag.noClear.toNat + 4 * s.diag.oor.toNat ∧
    (s.statusReg 2).toNat = 128 * s.fault.v.toNat + s.fault.cause.toNat ∧
    (s.statusReg 3).toNat =
      s.txn.ao.toNat + 2 * s.txn.io.toNat + 4 * s.txn.asnap.toNat + 8 * s.txn.wsnap.toNat

/-! ### The scan engine -/

/-- R212, R211: one undisturbed iteration at an address in the grid drives the active buffer's cell on the colour bus and
changes nothing else. -/
def Obligations.ScanIterationDrivesTheActiveCell : Prop :=
  ∀ s : State, s.Inv → s.sc.phase = .sH →
    let h := s.sampleAddr s.cfg.scanH
    let v := s.sampleAddr s.cfg.scanV
    s.cfg.inGrid v.toNat h.toNat = true →
    let t := scanStep^[6] s
    t = { s with
      lines := t.lines, trace := t.trace,
      sc := { phase := .sH, h := h, v := v, snap := s.sel, val := s.cell s.sel v.toNat h.toNat } } ∧
    (∀ i id, s.cfg.scanC.line[i]? = some id → t.line id = (s.cell s.sel v.toNat h.toNat).getLsbD i) ∧
    (∀ id, id ∉ s.cfg.scanC.line → t.line id = s.line id) ∧ t.trace.length = s.trace.length + 6

/-- R213: at an address outside the grid the iteration ends after the test: no selector load, no cell read, no drive. -/
def Obligations.ScanHoldsOutsideTheGrid : Prop :=
  ∀ s : State, s.sc.phase = .sH →
    let h := s.sampleAddr s.cfg.scanH
    let v := s.sampleAddr s.cfg.scanV
    s.cfg.inGrid v.toNat h.toNat = false →
    scanStep^[3] s = { s with
      sc := { s.sc with phase := .sH, h := h, v := v },
      trace := [] :: [.busSample s.cfg.scanV.line (s.cfg.scanV.line.map s.sample)] ::
        [.busSample s.cfg.scanH.line (s.cfg.scanH.line.map s.sample)] :: s.trace }

/-- R210, R239, R242, R246: a scan step depends on nothing of the command processor but cells and selector, and changes
only its own registers, its colour lines and the trace. -/
def Obligations.ScanEngineStaysOnItsSide : Prop :=
  (∀ (s : State) (f : FaultReg) (d : DiagReg) (x : TxnReg) (c : Cp) (ds : List Device) (ps : List Packet),
    scanStep { s with fault := f, diag := d, txn := x, cp := c, devs := ds, host := ps } =
      { scanStep s with fault := f, diag := d, txn := x, cp := c, devs := ds, host := ps }) ∧
  ∀ s : State, s.Canonical →
    scanStep s = { s with
      lines := (scanStep s).lines, sc := (scanStep s).sc, trace := (scanStep s).trace } ∧
    ∀ id, id ∉ s.cfg.scanC.line → (scanStep s).line id = s.line id

/-- R74: no command touches the scan engine, its colour lines or an input line. -/
def Obligations.CommandsStayOffTheScanLines : Prop :=
  ∀ (i : Instr) (s t : State), s.Inv → exec i s = .next t →
    t.sc = s.sc ∧ t.inputs = s.inputs ∧ ∀ id ∈ s.cfg.scanC.line, t.line id = s.line id

/-- R74, R75, R250: a step of the command processor that writes no cell and stores no selector, and a step of the scan
engine, lead to the same state in either order, but for the order of the trace. Steps of the command processor that change a cell or the
selector do not commute, and are left to the statements on the memory order. -/
def Obligations.CommandAndScanStepsCommute : Prop :=
  ∀ s : State, s.Inv → (cpStep s).fb = s.fb → (cpStep s).sel = s.sel →
    ({ scanStep (cpStep s) with lines := [], trace := [] } : State) =
      { cpStep (scanStep s) with lines := [], trace := [] } ∧
    ∀ id, (scanStep (cpStep s)).line id = (cpStep (scanStep s)).line id

/-- R210, R251: in every fair run, whatever the host offers and the environment does in it, the scan engine begins an
iteration again and again. -/
def Obligations.ScanEngineNeverStops : Prop :=
  ∀ (r : Nat → State) (turns : Nat → Turn) (offers : Nat → List Packet), IsRun r turns offers → Fair r turns →
    ∀ n, ∃ m, n ≤ m ∧ (r m).sc.phase = .sH

/-- R275, R214: while no address line changes inside an iteration, the address served at its end is the one still
presented. Under A_DWELL, in a run without a reset, every address of the grid that is presented gets its cell driven while
it is still presented: an address that is changed before the change, and in a fair run an address that is never changed. -/
def Obligations.DwellingAddressIsTheOneServed : Prop :=
  (∀ (r : Nat → State) (n : Nat), (r 0).Inv → (r 0).turn = .scan → (r 0).sc.phase = .sH →
    (∀ i, i < n → step (r i) = .next (r (i + 1)) ∧ Dwells (r i) (r (i + 1)) ∧ (r i).NoReset) →
    (∀ i, 0 < i → i ≤ n → (r i).sc.phase ≠ .sH) → (r n).sc.phase = .sDrv →
    (r n).sc.h = (r n).sampleAddr (r n).cfg.scanH ∧ (r n).sc.v = (r n).sampleAddr (r n).cfg.scanV) ∧
  ∀ (r : Nat → State) (turns : Nat → Turn) (offers : Nat → List Packet), IsRun r turns offers → (r 0).Inv →
    (∀ n, (turns n).isReset = false) → DwellsAlong r turns →
    (∀ m, AddressMoves (r m) (r (m + 1)) → AddressInGrid (r m) →
      ∃ e, e < m ∧ Serves r turns e ∧ ∀ i, e ≤ i → i ≤ m → SameAddress (r i) (r m)) ∧
    (Fair r turns → ∀ n, (∀ i, n ≤ i → ¬ AddressMoves (r i) (r (i + 1))) → AddressInGrid (r n) →
      ∃ e, n ≤ e ∧ Serves r turns e)

/-! ### Memory order -/

/-- R68: every step keeps the state what its trace left behind; reset leaves it so. -/
def Obligations.StepsKeepTheTraceCoherent : Prop :=
  (∀ s t : State, s.Inv → s.Coherent → step s = .next t → t.Coherent) ∧
  ∀ (cfg : Config) (d : Draw), (State.resetWith cfg d).Coherent

/-- R63, R124(b): SEL.A is the number of selector stores since reset modulo 2, at reset and after every step. -/
def Obligations.SelectorCountsTheStores : Prop :=
  (∀ s t : State, s.sel = (storeCount s.events % 2 == 1) → step s = .next t →
    t.sel = (storeCount t.events % 2 == 1)) ∧
  ∀ (cfg : Config) (d : Draw),
    (State.resetWith cfg d).sel = (storeCount (State.resetWith cfg d).events % 2 == 1)

/-- R67: a reader whose load returned a selector store, with no write of the cell since that store, reads what the
producer had written to the cell before it. -/
def Obligations.PublishedCellsAreReadWhole : Prop :=
  ∀ (s : State) (newer mid between before : List Event) (g : Agent) (a : Nat) (v : Byte) (b b' : Bool), s.Coherent →
    s.events = newer ++ .cellRead g a v :: mid ++ .selLoad g b :: between ++ .selStore b' :: before →
    (∀ x, .selStore x ∉ between) → (∀ x, .cellWrite a x ∉ mid) → (∀ x, .cellWrite a x ∉ between) →
    b = b' ∧ v = (lastWrite a before).getD (s.cfg.initCell a)

/-- R65: every producer event before a selector store happens before every reader event after a load that returned it.
That this takes in line events, which R70 leaves out, is the model's choice (DESIGN CHOICE, log 24).
R66: a cell read returns the value of a write that no later write, itself before the read, replaces in the happens-before
order, and that the read does not happen before; or the reset value, and then no write of the cell happens before the
read. -/
def Obligations.ReadsReturnNoOverwrittenValue : Prop :=
  (∀ (cfg : Config) (tr : List (List Event)) (i j p q : Nat) (x y z : List Event) (g : Agent) (v : Bool),
    SyncsWith tr i j → tr[j]? = some z → .selLoad g v ∈ z → i < p → tr[p]? = some x → ActsIn cfg x .host →
    q < j → tr[q]? = some y → ActsIn cfg y g → HappensBefore cfg tr p q) ∧
  ∀ (s : State) (j a : Nat) (y : List Event) (g : Agent) (v : Byte), s.Coherent →
    s.trace[j]? = some y → .cellRead g a v ∈ y →
    (∃ i x, s.trace[i]? = some x ∧ .cellWrite a v ∈ x ∧ ¬ HappensBefore s.cfg s.trace j i ∧
      ¬ ∃ k z w, s.trace[k]? = some z ∧ .cellWrite a w ∈ z ∧ HappensBefore s.cfg s.trace i k ∧
        HappensBefore s.cfg s.trace k j) ∨
    (v = s.cfg.initCell a ∧
      ¬ ∃ k z w, s.trace[k]? = some z ∧ .cellWrite a w ∈ z ∧ HappensBefore s.cfg s.trace k j)

/-- R271, R67: while A_QUIESCE holds, what a scan iteration reads is the cell of the buffer it loaded, as it was at the
load. -/
def Obligations.QuietReaderSeesTheLoadedFrame : Prop :=
  ∀ (r : Nat → State) (n : Nat), 0 < n → (r 0).Inv → (r 0).turn = .scan → (r 0).sc.phase = .sSel →
    (∀ i, i ≤ n → step (r i) = .next (r (i + 1)) ∧ Quiesces (r i) (r (i + 1)) ∧ (r i).NoReset) →
    (∀ i, 0 < i → i < n → (r i).turn ≠ .scan) → (r n).turn = .scan →
    (r (n + 1)).sc.val = (r 0).cell (r 0).sel (r 0).sc.v.toNat (r 0).sc.h.toNat

/-! ### Invariants of every step -/

/-- Reset leaves a state of the block, whatever is drawn for what it leaves unspecified. -/
def Obligations.ResetMeetsTheInvariant : Prop :=
  (∀ (cfg : Config) (d : Draw), cfg.WF → (State.resetWith cfg d).Inv) ∧ State.reset.Inv

/-- Every step keeps the invariant: the canonical forms, the devices' widths (R35), the snapshots (R124(c)), FAULT (R28),
the scanned address (R212). -/
def Obligations.EveryStepKeepsTheInvariant : Prop :=
  ∀ s t : State, s.Inv → step s = .next t → t.Inv

/-- R138: reset leaves the control lines idle, and every step keeps that they will be idle once the command in execution
has ended; so whenever no command is in execution they are idle. -/
def Obligations.ControlLinesSettle : Prop :=
  (∀ (cfg : Config) (d : Draw), cfg.WF → (State.resetWith cfg d).Settles) ∧
  (∀ s t : State, s.Inv → s.Settles → step s = .next t → t.Settles) ∧
  ∀ s : State, s.Settles → s.cp.busy = false → s.ControlIdle

/-- R124(d), R260: no step but a reset changes the configuration, or a cell of the buffer that is active when it
begins. -/
def Obligations.ActiveBufferIsNeverWritten : Prop :=
  ∀ s t : State, s.Inv → s.NoReset → step s = .next t →
    t.cfg = s.cfg ∧ ∀ r c, s.cfg.inGrid r c = true → t.cell s.sel r c = s.cell s.sel r c

/-- R34, R250: a step of the environment changes input lines only, each line it names to the level it gives. -/
def Obligations.EnvironmentMovesOnlyInputLines : Prop :=
  ∀ (s : State) (levels : List (LineId × Level)), s.Canonical → (levels.map Prod.fst).Nodup →
    envStep levels s = { s with inputs := (envStep levels s).inputs, trace := [] :: s.trace } ∧
    ∀ id, (envStep levels s).input id =
      if id ∈ s.cfg.inputLines then (levels.lookup id).getD (s.input id) else s.input id

/-! ### Reset -/

/-- R261: the values the spec gives for reset, and for what it leaves unspecified the value drawn. -/
def Obligations.ResetLeavesTheSpecsValues : Prop :=
  ∀ (cfg : Config) (d : Draw), cfg.WF →
    (State.resetWith cfg d).statusPort = [0, 0, 0, 0] ∧
    (∀ b r c, (State.resetWith cfg d).cell b r c = cfg.initCell (r * cfg.w + c)) ∧
    (State.resetWith cfg d).ControlIdle ∧
    (∀ id ∈ cfg.dataLines, (State.resetWith cfg d).line id = Sparse.get Config.low d.lines id) ∧
    (State.resetWith cfg d).devs = cfg.devIds.map (resetDevice cfg d) ∧ (State.resetWith cfg d).cp.busy = false ∧
    (State.resetWith cfg d).sc = { phase := .sH, h := d.h, v := d.v, snap := d.snap, val := d.val } ∧
    (State.resetWith cfg d).trace = []

/-- R260, R267, R8: a reset is the exit from any state, the faulted one among them; a configuration that is not
well-formed has no reset state. That a reset keeps the input levels, the packets offered and the agenda is the model's
(DESIGN CHOICE, log 17), as is that the moment goes on (log 9); that the missing reset state is a refusal is DEDUCED
(log 10). -/
def Obligations.ResetIsTheExitFromAnyState : Prop :=
  ∀ (s : State) (cfg : Config) (d : Draw), s.turn = .reset cfg d →
    (cfg.WF → step s = .next { State.resetWith cfg d with
      inputs := s.inputs, host := s.host, agenda := s.agenda.tail, moment := s.moment + 1 }) ∧
    (¬ cfg.WF → step s = .refused .illFormedConfig)
end

