-- ==== Sys2Proof/Laws/State.lean ====
section
/-! SUPPORT. What each update of the state does to each field: one lemma per field per update, true by rfl, so that no
later proof unfolds a record update. -/

namespace Sys2Proof.Machine

variable (s : State)

/-! ### emit -/

@[simp] theorem emit_cfg (g : List Event) : (s.emit g).cfg = s.cfg := rfl
@[simp] theorem emit_fb (g : List Event) : (s.emit g).fb = s.fb := rfl
@[simp] theorem emit_sel (g : List Event) : (s.emit g).sel = s.sel := rfl
@[simp] theorem emit_diag (g : List Event) : (s.emit g).diag = s.diag := rfl
@[simp] theorem emit_fault (g : List Event) : (s.emit g).fault = s.fault := rfl
@[simp] theorem emit_txn (g : List Event) : (s.emit g).txn = s.txn := rfl
@[simp] theorem emit_lines (g : List Event) : (s.emit g).lines = s.lines := rfl
@[simp] theorem emit_devs (g : List Event) : (s.emit g).devs = s.devs := rfl
@[simp] theorem emit_cp (g : List Event) : (s.emit g).cp = s.cp := rfl
@[simp] theorem emit_sc (g : List Event) : (s.emit g).sc = s.sc := rfl
@[simp] theorem emit_inputs (g : List Event) : (s.emit g).inputs = s.inputs := rfl
@[simp] theorem emit_host (g : List Event) : (s.emit g).host = s.host := rfl
@[simp] theorem emit_agenda (g : List Event) : (s.emit g).agenda = s.agenda := rfl
@[simp] theorem emit_trace (g : List Event) : (s.emit g).trace = g :: s.trace := rfl
@[simp] theorem emit_moment (g : List Event) : (s.emit g).moment = s.moment := rfl

/-! ### advance -/

@[simp] theorem advance_cfg : (s.advance).cfg = s.cfg := rfl
@[simp] theorem advance_fb : (s.advance).fb = s.fb := rfl
@[simp] theorem advance_sel : (s.advance).sel = s.sel := rfl
@[simp] theorem advance_diag : (s.advance).diag = s.diag := rfl
@[simp] theorem advance_fault : (s.advance).fault = s.fault := rfl
@[simp] theorem advance_txn : (s.advance).txn = s.txn := rfl
@[simp] theorem advance_lines : (s.advance).lines = s.lines := rfl
@[simp] theorem advance_devs : (s.advance).devs = s.devs := rfl
@[simp] theorem advance_cp : (s.advance).cp = { s.cp with pos := s.cp.pos + 1 } := rfl
@[simp] theorem advance_sc : (s.advance).sc = s.sc := rfl
@[simp] theorem advance_inputs : (s.advance).inputs = s.inputs := rfl
@[simp] theorem advance_host : (s.advance).host = s.host := rfl
@[simp] theorem advance_agenda : (s.advance).agenda = s.agenda := rfl
@[simp] theorem advance_trace : (s.advance).trace = s.trace := rfl
@[simp] theorem advance_moment : (s.advance).moment = s.moment := rfl

/-! ### withResult -/

@[simp] theorem withResult_cfg (bs : List Byte) : (s.withResult bs).cfg = s.cfg := rfl
@[simp] theorem withResult_fb (bs : List Byte) : (s.withResult bs).fb = s.fb := rfl
@[simp] theorem withResult_sel (bs : List Byte) : (s.withResult bs).sel = s.sel := rfl
@[simp] theorem withResult_diag (bs : List Byte) : (s.withResult bs).diag = s.diag := rfl
@[simp] theorem withResult_fault (bs : List Byte) : (s.withResult bs).fault = s.fault := rfl
@[simp] theorem withResult_txn (bs : List Byte) : (s.withResult bs).txn = s.txn := rfl
@[simp] theorem withResult_lines (bs : List Byte) : (s.withResult bs).lines = s.lines := rfl
@[simp] theorem withResult_devs (bs : List Byte) : (s.withResult bs).devs = s.devs := rfl
@[simp] theorem withResult_cp (bs : List Byte) : (s.withResult bs).cp = { s.cp with result := bs } := rfl
@[simp] theorem withResult_sc (bs : List Byte) : (s.withResult bs).sc = s.sc := rfl
@[simp] theorem withResult_inputs (bs : List Byte) : (s.withResult bs).inputs = s.inputs := rfl
@[simp] theorem withResult_host (bs : List Byte) : (s.withResult bs).host = s.host := rfl
@[simp] theorem withResult_agenda (bs : List Byte) : (s.withResult bs).agenda = s.agenda := rfl
@[simp] theorem withResult_trace (bs : List Byte) : (s.withResult bs).trace = s.trace := rfl
@[simp] theorem withResult_moment (bs : List Byte) : (s.withResult bs).moment = s.moment := rfl

/-! ### putCell -/

@[simp] theorem putCell_cfg (a : Nat) (v : Byte) : (s.putCell a v).cfg = s.cfg := rfl
@[simp] theorem putCell_fb (a : Nat) (v : Byte) : (s.putCell a v).fb = Sparse.set s.cfg.initCell s.fb a v := rfl
@[simp] theorem putCell_sel (a : Nat) (v : Byte) : (s.putCell a v).sel = s.sel := rfl
@[simp] theorem putCell_diag (a : Nat) (v : Byte) : (s.putCell a v).diag = s.diag := rfl
@[simp] theorem putCell_fault (a : Nat) (v : Byte) : (s.putCell a v).fault = s.fault := rfl
@[simp] theorem putCell_txn (a : Nat) (v : Byte) : (s.putCell a v).txn = s.txn := rfl
@[simp] theorem putCell_lines (a : Nat) (v : Byte) : (s.putCell a v).lines = s.lines := rfl
@[simp] theorem putCell_devs (a : Nat) (v : Byte) : (s.putCell a v).devs = s.devs := rfl
@[simp] theorem putCell_cp (a : Nat) (v : Byte) : (s.putCell a v).cp = s.cp := rfl
@[simp] theorem putCell_sc (a : Nat) (v : Byte) : (s.putCell a v).sc = s.sc := rfl
@[simp] theorem putCell_inputs (a : Nat) (v : Byte) : (s.putCell a v).inputs = s.inputs := rfl
@[simp] theorem putCell_host (a : Nat) (v : Byte) : (s.putCell a v).host = s.host := rfl
@[simp] theorem putCell_agenda (a : Nat) (v : Byte) : (s.putCell a v).agenda = s.agenda := rfl
@[simp] theorem putCell_trace (a : Nat) (v : Byte) : (s.putCell a v).trace = s.trace := rfl
@[simp] theorem putCell_moment (a : Nat) (v : Byte) : (s.putCell a v).moment = s.moment := rfl

/-! ### putLine -/

@[simp] theorem putLine_cfg (id : LineId) (l : Level) : (s.putLine id l).cfg = s.cfg := rfl
@[simp] theorem putLine_fb (id : LineId) (l : Level) : (s.putLine id l).fb = s.fb := rfl
@[simp] theorem putLine_sel (id : LineId) (l : Level) : (s.putLine id l).sel = s.sel := rfl
@[simp] theorem putLine_diag (id : LineId) (l : Level) : (s.putLine id l).diag = s.diag := rfl
@[simp] theorem putLine_fault (id : LineId) (l : Level) : (s.putLine id l).fault = s.fault := rfl
@[simp] theorem putLine_txn (id : LineId) (l : Level) : (s.putLine id l).txn = s.txn := rfl
@[simp] theorem putLine_lines (id : LineId) (l : Level) :
    (s.putLine id l).lines = Sparse.set Config.low s.lines id l := rfl
@[simp] theorem putLine_devs (id : LineId) (l : Level) : (s.putLine id l).devs = s.devs := rfl
@[simp] theorem putLine_cp (id : LineId) (l : Level) : (s.putLine id l).cp = s.cp := rfl
@[simp] theorem putLine_sc (id : LineId) (l : Level) : (s.putLine id l).sc = s.sc := rfl
@[simp] theorem putLine_inputs (id : LineId) (l : Level) : (s.putLine id l).inputs = s.inputs := rfl
@[simp] theorem putLine_host (id : LineId) (l : Level) : (s.putLine id l).host = s.host := rfl
@[simp] theorem putLine_agenda (id : LineId) (l : Level) : (s.putLine id l).agenda = s.agenda := rfl
@[simp] theorem putLine_trace (id : LineId) (l : Level) : (s.putLine id l).trace = s.trace := rfl
@[simp] theorem putLine_moment (id : LineId) (l : Level) : (s.putLine id l).moment = s.moment := rfl

/-! ### putLines -/

@[simp] theorem putLines_cfg (ls : List (LineId × Level)) : (s.putLines ls).cfg = s.cfg := rfl
@[simp] theorem putLines_fb (ls : List (LineId × Level)) : (s.putLines ls).fb = s.fb := rfl
@[simp] theorem putLines_sel (ls : List (LineId × Level)) : (s.putLines ls).sel = s.sel := rfl
@[simp] theorem putLines_diag (ls : List (LineId × Level)) : (s.putLines ls).diag = s.diag := rfl
@[simp] theorem putLines_fault (ls : List (LineId × Level)) : (s.putLines ls).fault = s.fault := rfl
@[simp] theorem putLines_txn (ls : List (LineId × Level)) : (s.putLines ls).txn = s.txn := rfl
@[simp] theorem putLines_lines (ls : List (LineId × Level)) :
    (s.putLines ls).lines = Sparse.setAll Config.low s.lines ls := rfl
@[simp] theorem putLines_devs (ls : List (LineId × Level)) : (s.putLines ls).devs = s.devs := rfl
@[simp] theorem putLines_cp (ls : List (LineId × Level)) : (s.putLines ls).cp = s.cp := rfl
@[simp] theorem putLines_sc (ls : List (LineId × Level)) : (s.putLines ls).sc = s.sc := rfl
@[simp] theorem putLines_inputs (ls : List (LineId × Level)) : (s.putLines ls).inputs = s.inputs := rfl
@[simp] theorem putLines_host (ls : List (LineId × Level)) : (s.putLines ls).host = s.host := rfl
@[simp] theorem putLines_agenda (ls : List (LineId × Level)) : (s.putLines ls).agenda = s.agenda := rfl
@[simp] theorem putLines_trace (ls : List (LineId × Level)) : (s.putLines ls).trace = s.trace := rfl
@[simp] theorem putLines_moment (ls : List (LineId × Level)) : (s.putLines ls).moment = s.moment := rfl

/-! ### lineWriteAll -/

@[simp] theorem lineWriteAll_cfg (ls : List (LineId × Level)) : (s.lineWriteAll ls).cfg = s.cfg := rfl
@[simp] theorem lineWriteAll_fb (ls : List (LineId × Level)) : (s.lineWriteAll ls).fb = s.fb := rfl
@[simp] theorem lineWriteAll_sel (ls : List (LineId × Level)) : (s.lineWriteAll ls).sel = s.sel := rfl
@[simp] theorem lineWriteAll_diag (ls : List (LineId × Level)) : (s.lineWriteAll ls).diag = s.diag := rfl
@[simp] theorem lineWriteAll_fault (ls : List (LineId × Level)) : (s.lineWriteAll ls).fault = s.fault := rfl
@[simp] theorem lineWriteAll_txn (ls : List (LineId × Level)) : (s.lineWriteAll ls).txn = s.txn := rfl
@[simp] theorem lineWriteAll_lines (ls : List (LineId × Level)) :
    (s.lineWriteAll ls).lines = Sparse.setAll Config.low s.lines ls := rfl
@[simp] theorem lineWriteAll_devs (ls : List (LineId × Level)) : (s.lineWriteAll ls).devs = s.devs := rfl
@[simp] theorem lineWriteAll_cp (ls : List (LineId × Level)) : (s.lineWriteAll ls).cp = s.cp := rfl
@[simp] theorem lineWriteAll_sc (ls : List (LineId × Level)) : (s.lineWriteAll ls).sc = s.sc := rfl
@[simp] theorem lineWriteAll_inputs (ls : List (LineId × Level)) : (s.lineWriteAll ls).inputs = s.inputs := rfl
@[simp] theorem lineWriteAll_host (ls : List (LineId × Level)) : (s.lineWriteAll ls).host = s.host := rfl
@[simp] theorem lineWriteAll_agenda (ls : List (LineId × Level)) : (s.lineWriteAll ls).agenda = s.agenda := rfl
@[simp] theorem lineWriteAll_trace (ls : List (LineId × Level)) :
    (s.lineWriteAll ls).trace = s.driveEvents ls :: s.trace := rfl
@[simp] theorem lineWriteAll_moment (ls : List (LineId × Level)) : (s.lineWriteAll ls).moment = s.moment := rfl

/-! ### lineWrite -/

@[simp] theorem lineWrite_cfg (id : LineId) (l : Level) : (s.lineWrite id l).cfg = s.cfg := rfl
@[simp] theorem lineWrite_fb (id : LineId) (l : Level) : (s.lineWrite id l).fb = s.fb := rfl
@[simp] theorem lineWrite_sel (id : LineId) (l : Level) : (s.lineWrite id l).sel = s.sel := rfl
@[simp] theorem lineWrite_diag (id : LineId) (l : Level) : (s.lineWrite id l).diag = s.diag := rfl
@[simp] theorem lineWrite_fault (id : LineId) (l : Level) : (s.lineWrite id l).fault = s.fault := rfl
@[simp] theorem lineWrite_txn (id : LineId) (l : Level) : (s.lineWrite id l).txn = s.txn := rfl
@[simp] theorem lineWrite_lines (id : LineId) (l : Level) :
    (s.lineWrite id l).lines = Sparse.set Config.low s.lines id l := rfl
@[simp] theorem lineWrite_devs (id : LineId) (l : Level) :
    (s.lineWrite id l).devs = s.devs.map ((s.putLine id l).deviceAfter id (s.line id) l) := rfl
@[simp] theorem lineWrite_cp (id : LineId) (l : Level) : (s.lineWrite id l).cp = s.cp := rfl
@[simp] theorem lineWrite_sc (id : LineId) (l : Level) : (s.lineWrite id l).sc = s.sc := rfl
@[simp] theorem lineWrite_inputs (id : LineId) (l : Level) : (s.lineWrite id l).inputs = s.inputs := rfl
@[simp] theorem lineWrite_host (id : LineId) (l : Level) : (s.lineWrite id l).host = s.host := rfl
@[simp] theorem lineWrite_agenda (id : LineId) (l : Level) : (s.lineWrite id l).agenda = s.agenda := rfl
@[simp] theorem lineWrite_trace (id : LineId) (l : Level) :
    (s.lineWrite id l).trace = (.lineEv id (s.line id) l :: s.devs.flatMap ((s.putLine id l).deviceEvents id (s.line id) l)) :: s.trace := rfl
@[simp] theorem lineWrite_moment (id : LineId) (l : Level) : (s.lineWrite id l).moment = s.moment := rfl

/-! ### raiseFault -/

@[simp] theorem raiseFault_cfg (c : Cause) : (s.raiseFault c).cfg = s.cfg := rfl
@[simp] theorem raiseFault_fb (c : Cause) : (s.raiseFault c).fb = s.fb := rfl
@[simp] theorem raiseFault_sel (c : Cause) : (s.raiseFault c).sel = s.sel := rfl
@[simp] theorem raiseFault_diag (c : Cause) : (s.raiseFault c).diag = s.diag := rfl
@[simp] theorem raiseFault_fault (c : Cause) : (s.raiseFault c).fault = { v := true, cause := c.code } := rfl
@[simp] theorem raiseFault_txn (c : Cause) : (s.raiseFault c).txn = s.txn := rfl
@[simp] theorem raiseFault_lines (c : Cause) : (s.raiseFault c).lines = s.lines := rfl
@[simp] theorem raiseFault_devs (c : Cause) : (s.raiseFault c).devs = s.devs := rfl
@[simp] theorem raiseFault_cp (c : Cause) : (s.raiseFault c).cp = Cp.idle := rfl
@[simp] theorem raiseFault_sc (c : Cause) : (s.raiseFault c).sc = s.sc := rfl
@[simp] theorem raiseFault_inputs (c : Cause) : (s.raiseFault c).inputs = s.inputs := rfl
@[simp] theorem raiseFault_host (c : Cause) : (s.raiseFault c).host = s.host := rfl
@[simp] theorem raiseFault_agenda (c : Cause) : (s.raiseFault c).agenda = s.agenda := rfl
@[simp] theorem raiseFault_trace (c : Cause) : (s.raiseFault c).trace = [.faultEv c] :: s.trace := rfl
@[simp] theorem raiseFault_moment (c : Cause) : (s.raiseFault c).moment = s.moment := rfl

/-! ### respond -/

@[simp] theorem respond_cfg (bs : List Byte) : (s.respond bs).cfg = s.cfg := rfl
@[simp] theorem respond_fb (bs : List Byte) : (s.respond bs).fb = s.fb := rfl
@[simp] theorem respond_sel (bs : List Byte) : (s.respond bs).sel = s.sel := rfl
@[simp] theorem respond_diag (bs : List Byte) : (s.respond bs).diag = s.diag := rfl
@[simp] theorem respond_fault (bs : List Byte) : (s.respond bs).fault = s.fault := rfl
@[simp] theorem respond_txn (bs : List Byte) : (s.respond bs).txn = s.txn := rfl
@[simp] theorem respond_lines (bs : List Byte) : (s.respond bs).lines = s.lines := rfl
@[simp] theorem respond_devs (bs : List Byte) : (s.respond bs).devs = s.devs := rfl
@[simp] theorem respond_cp (bs : List Byte) : (s.respond bs).cp = Cp.idle := rfl
@[simp] theorem respond_sc (bs : List Byte) : (s.respond bs).sc = s.sc := rfl
@[simp] theorem respond_inputs (bs : List Byte) : (s.respond bs).inputs = s.inputs := rfl
@[simp] theorem respond_host (bs : List Byte) : (s.respond bs).host = s.host := rfl
@[simp] theorem respond_agenda (bs : List Byte) : (s.respond bs).agenda = s.agenda := rfl
@[simp] theorem respond_trace (bs : List Byte) : (s.respond bs).trace = [.resp bs] :: s.trace := rfl
@[simp] theorem respond_moment (bs : List Byte) : (s.respond bs).moment = s.moment := rfl

/-! ### accept -/

@[simp] theorem accept_cfg (p : Packet) (ps : List Packet) : (s.accept p ps).cfg = s.cfg := rfl
@[simp] theorem accept_fb (p : Packet) (ps : List Packet) : (s.accept p ps).fb = s.fb := rfl
@[simp] theorem accept_sel (p : Packet) (ps : List Packet) : (s.accept p ps).sel = s.sel := rfl
@[simp] theorem accept_diag (p : Packet) (ps : List Packet) : (s.accept p ps).diag = s.diag := rfl
@[simp] theorem accept_fault (p : Packet) (ps : List Packet) : (s.accept p ps).fault = s.fault := rfl
@[simp] theorem accept_txn (p : Packet) (ps : List Packet) : (s.accept p ps).txn = s.txn := rfl
@[simp] theorem accept_lines (p : Packet) (ps : List Packet) : (s.accept p ps).lines = s.lines := rfl
@[simp] theorem accept_devs (p : Packet) (ps : List Packet) : (s.accept p ps).devs = s.devs := rfl
@[simp] theorem accept_cp (p : Packet) (ps : List Packet) :
    (s.accept p ps).cp = { busy := true, cmd := p, pos := 0, result := [] } := rfl
@[simp] theorem accept_sc (p : Packet) (ps : List Packet) : (s.accept p ps).sc = s.sc := rfl
@[simp] theorem accept_inputs (p : Packet) (ps : List Packet) : (s.accept p ps).inputs = s.inputs := rfl
@[simp] theorem accept_host (p : Packet) (ps : List Packet) : (s.accept p ps).host = ps := rfl
@[simp] theorem accept_agenda (p : Packet) (ps : List Packet) : (s.accept p ps).agenda = s.agenda := rfl
@[simp] theorem accept_trace (p : Packet) (ps : List Packet) : (s.accept p ps).trace = [.cmd p] :: s.trace := rfl
@[simp] theorem accept_moment (p : Packet) (ps : List Packet) : (s.accept p ps).moment = s.moment := rfl

/-! ### begun -/

@[simp] theorem begun_cfg : (s.begun).cfg = s.cfg := rfl
@[simp] theorem begun_fb : (s.begun).fb = s.fb := rfl
@[simp] theorem begun_sel : (s.begun).sel = s.sel := rfl
@[simp] theorem begun_diag : (s.begun).diag = s.diag := rfl
@[simp] theorem begun_fault : (s.begun).fault = s.fault := rfl
@[simp] theorem begun_txn : (s.begun).txn = s.txn := rfl
@[simp] theorem begun_lines : (s.begun).lines = s.lines := rfl
@[simp] theorem begun_devs : (s.begun).devs = s.devs := rfl
@[simp] theorem begun_cp : (s.begun).cp = s.cp := rfl
@[simp] theorem begun_sc : (s.begun).sc = s.sc := rfl
@[simp] theorem begun_inputs : (s.begun).inputs = s.inputs := rfl
@[simp] theorem begun_host : (s.begun).host = s.host := rfl
@[simp] theorem begun_agenda : (s.begun).agenda = s.agenda.tail := rfl
@[simp] theorem begun_trace : (s.begun).trace = s.trace := rfl
@[simp] theorem begun_moment : (s.begun).moment = s.moment + 1 := rfl

/-! ### offering -/

@[simp] theorem offering_cfg (p : Packet) : (s.offering p).cfg = s.cfg := rfl
@[simp] theorem offering_fb (p : Packet) : (s.offering p).fb = s.fb := rfl
@[simp] theorem offering_sel (p : Packet) : (s.offering p).sel = s.sel := rfl
@[simp] theorem offering_diag (p : Packet) : (s.offering p).diag = s.diag := rfl
@[simp] theorem offering_fault (p : Packet) : (s.offering p).fault = { v := false, cause := 0 } := rfl
@[simp] theorem offering_txn (p : Packet) : (s.offering p).txn = s.txn := rfl
@[simp] theorem offering_lines (p : Packet) : (s.offering p).lines = s.lines := rfl
@[simp] theorem offering_devs (p : Packet) : (s.offering p).devs = s.devs := rfl
@[simp] theorem offering_cp (p : Packet) : (s.offering p).cp = Cp.idle := rfl
@[simp] theorem offering_sc (p : Packet) : (s.offering p).sc = s.sc := rfl
@[simp] theorem offering_inputs (p : Packet) : (s.offering p).inputs = s.inputs := rfl
@[simp] theorem offering_host (p : Packet) : (s.offering p).host = p :: s.host := rfl
@[simp] theorem offering_agenda (p : Packet) : (s.offering p).agenda = .command :: s.agenda := rfl
@[simp] theorem offering_trace (p : Packet) : (s.offering p).trace = s.trace := rfl
@[simp] theorem offering_moment (p : Packet) : (s.offering p).moment = s.moment := rfl

end Sys2Proof.Machine
end

