-- ==== Sys2Proof/Laws/Commands.lean ====
section
/-! SUPPORT. What a command does, said once: its first failing check takes the fault, else its step list is taken to its
end; every step list is a body and one response. -/

namespace Sys2Proof.Machine

variable {s : State} {c : Cause} {ps qs : List Prim}

@[simp] theorem runCommand_some : runCommand (some c) ps s = .next (s.raiseFault c) := rfl

@[simp] theorem runCommand_none : runCommand none ps s = .next (s.runPrims ps) := rfl

@[simp] theorem runPrims_nil : s.runPrims [] = s := rfl

@[simp] theorem runPrims_cons {p : Prim} : s.runPrims (p :: ps) = (s.prim p).runPrims ps := rfl

@[simp] theorem runPrims_append : s.runPrims (ps ++ qs) = (s.runPrims ps).runPrims qs := by
  simp [State.runPrims]

@[simp] theorem require_true : require true c = none := rfl

@[simp] theorem require_false : require false c = some c := rfl

theorem require_eq_none {ok : Bool} : require ok c = none ↔ ok = true := by cases ok <;> simp

@[simp] theorem firstFault_nil : firstFault [] = none := rfl

@[simp] theorem firstFault_none {cs : List (Option Cause)} : firstFault (none :: cs) = firstFault cs := rfl

@[simp] theorem firstFault_some {cs : List (Option Cause)} : firstFault (some c :: cs) = some c := rfl

/-- No check of a list fails exactly when none of them does. -/
theorem firstFault_eq_none {cs : List (Option Cause)} : firstFault cs = none ↔ ∀ x ∈ cs, x = none := by
  induction cs with
  | nil => simp
  | cons x cs ih => cases x <;> simp [ih]

/-- Every meaning is one run of the command's checks and step list. -/
theorem exec_eq_runCommand (i : Instr) (s : State) :
    exec i s = runCommand (commandFault i s) (commandSteps s.cfg i) s := by
  cases i <;> rfl

/-- A command whose check fails takes the fault and does nothing else (R242). -/
theorem exec_of_fault {i : Instr} (h : commandFault i s = some c) : exec i s = .next (s.raiseFault c) := by
  rw [exec_eq_runCommand, h]; rfl

/-- A command whose checks pass takes its step list to its end. -/
theorem exec_of_ok {i : Instr} (h : commandFault i s = none) :
    exec i s = .next (s.runPrims (commandSteps s.cfg i)) := by
  rw [exec_eq_runCommand, h]; rfl

/-- What a meaning can answer, said once. -/
theorem exec_cases {i : Instr} {o : Host.Outcome State Fault Refusal} (h : exec i s = o) :
    (∃ c, commandFault i s = some c ∧ o = .next (s.raiseFault c)) ∨
    (commandFault i s = none ∧ o = .next (s.runPrims (commandSteps s.cfg i))) := by
  cases hf : commandFault i s with
  | some c => exact .inl ⟨c, rfl, by rw [← h, exec_of_fault hf]⟩
  | none => exact .inr ⟨rfl, by rw [← h, exec_of_ok hf]⟩

/-- A primitive that ends the command. -/
def Prim.isResponse : Prim → Bool
  | .respond _ => true
  | .respondResult => true
  | .respondReg _ => true
  | _ => false

/-- A primitive other than a response keeps the command in execution, at the next position (R22). -/
theorem prim_cp {p : Prim} (h : p.isResponse = false) :
    (s.prim p).cp.busy = s.cp.busy ∧ (s.prim p).cp.cmd = s.cp.cmd ∧ (s.prim p).cp.pos = s.cp.pos + 1 := by
  cases p <;> simp_all [Prim.isResponse, State.prim, State.hostRead, State.hostWrite]

/-- A response leaves the command processor idle (R80). -/
theorem prim_response {p : Prim} (h : p.isResponse = true) :
    (s.prim p).cp = Cp.idle ∧ ∃ bs, (s.prim p).trace = [.resp bs] :: s.trace := by
  cases p <;> simp_all [Prim.isResponse, State.prim]

/-- No primitive touches the configuration, FAULT, the scan engine, the inputs or what the outside holds. -/
theorem prim_outside (p : Prim) :
    (s.prim p).cfg = s.cfg ∧ (s.prim p).fault = s.fault ∧ (s.prim p).sc = s.sc ∧ (s.prim p).inputs = s.inputs ∧
    (s.prim p).host = s.host ∧ (s.prim p).agenda = s.agenda ∧ (s.prim p).moment = s.moment := by
  cases p <;> simp [State.prim, State.hostRead, State.hostWrite]

@[simp] theorem prim_cfg (p : Prim) : (s.prim p).cfg = s.cfg := (prim_outside p).1

@[simp] theorem runPrims_cfg : (s.runPrims ps).cfg = s.cfg := by
  induction ps generalizing s with
  | nil => rfl
  | cons p ps ih => rw [runPrims_cons, ih, prim_cfg]

end Sys2Proof.Machine
end

