-- ==== Sys2Proof/Laws/Decode.lean ====
section
/-! SUPPORT. The laws of the numbers in packets (spec/30_encoding.md R82): the bytes of a number read back as it. -/

namespace Sys2Proof

/-- The first byte and the rest of a number's bytes. -/
theorem bytesLE_succ (n v : Nat) : bytesLE (n + 1) v = BitVec.ofNat 8 v :: bytesLE n (v / 256) := by
  simp only [bytesLE, List.range_succ_eq_map, List.map_cons, List.map_map, pow_zero, Nat.div_one]
  congr 1
  apply List.map_congr_left
  intro i _
  simp [Function.comp, pow_succ, Nat.mul_comm, Nat.div_div_eq_div_mul]

/-- The bytes of a number read back as the number cut to that many bytes (R82). -/
theorem natLE_bytesLE (n v : Nat) : natLE (bytesLE n v) = v % 256 ^ n := by
  induction n generalizing v with
  | zero => simp [bytesLE, natLE, Nat.mod_one]
  | succ n ih =>
    rw [bytesLE_succ, natLE, ih, BitVec.toNat_ofNat, show (256 : Nat) ^ (n + 1) = 256 * 256 ^ n by ring, Nat.mod_mul]

/-- A 16-bit operand reads back from its two bytes. -/
theorem half_bytesLE (x : Half) : half (BitVec.ofNat 8 x.toNat) (BitVec.ofNat 8 (x.toNat / 256)) = x := by
  have h := natLE_bytesLE 2 x.toNat
  rw [bytesLE_succ, bytesLE_succ] at h
  apply BitVec.eq_of_toNat_eq
  rw [half, BitVec.toNat_ofNat, show natLE [BitVec.ofNat 8 x.toNat, BitVec.ofNat 8 (x.toNat / 256)] = _ from h]
  have := x.isLt
  omega

/-- The two bytes of a 16-bit operand. -/
theorem bytesLE_half (x : Half) :
    bytesLE 2 x.toNat = [BitVec.ofNat 8 x.toNat, BitVec.ofNat 8 (x.toNat / 256)] := by
  rw [bytesLE_succ, bytesLE_succ]; rfl

/-- The four bytes of a 32-bit operand. -/
theorem bytesLE_word (x : Word) :
    bytesLE 4 x.toNat = [BitVec.ofNat 8 x.toNat, BitVec.ofNat 8 (x.toNat / 256),
      BitVec.ofNat 8 (x.toNat / 256 / 256), BitVec.ofNat 8 (x.toNat / 256 / 256 / 256)] := by
  rw [bytesLE_succ, bytesLE_succ, bytesLE_succ, bytesLE_succ]; rfl

/-- A 32-bit operand reads back from its four bytes. -/
theorem word_bytesLE (x : Word) :
    word (BitVec.ofNat 8 x.toNat) (BitVec.ofNat 8 (x.toNat / 256)) (BitVec.ofNat 8 (x.toNat / 256 / 256))
      (BitVec.ofNat 8 (x.toNat / 256 / 256 / 256)) = x := by
  have h := natLE_bytesLE 4 x.toNat
  rw [bytesLE_word] at h
  apply BitVec.eq_of_toNat_eq
  rw [word, BitVec.toNat_ofNat, h]
  have := x.isLt
  omega

end Sys2Proof
end

