-- ==== Sys2Proof/Laws/Sparse.lean ====
section
/-! SUPPORT. The laws of the sparse map: a read after a write to the same key gives the value written, a write leaves
every other key alone, and the canonical form is kept. -/

namespace Sys2Proof.Sparse

variable {α : Type} {d : Nat → α} {m : List (Nat × α)} {k k' : Nat} {v : α}

/-- A key below every listed key reads as the default. -/
theorem get_of_lt (h : ∀ p ∈ m, k < p.1) : get d m k = d k := by
  induction m with
  | nil => rfl
  | cons p m ih =>
    have hp : k < p.1 := h p (by simp)
    simp only [get]
    rw [if_neg (by omega)]
    exact ih fun q hq => h q (by simp [hq])

theorem wf_nil : wf d ([] : List (Nat × α)) := ⟨.nil, by simp⟩

variable [DecidableEq α]

/-- Read after write, for a map in canonical form. -/
theorem get_set (h : wf d m) : get d (set d m k v) k' = if k' = k then v else get d m k' := by
  induction m with
  | nil =>
    simp only [set]
    split
    · next hv => subst hv; simp only [get]; split <;> simp_all
    · simp only [get]
  | cons p m ih =>
    obtain ⟨hp, hd⟩ := h
    have hp' := List.pairwise_cons.mp hp
    have ih := ih ⟨hp'.2, fun q hq => hd q (by simp [hq])⟩
    have low : k ≤ p.1 → get d m k = d k := fun hk => get_of_lt fun q hq => by
      have := hp'.1 q hq; omega
    simp only [set]
    split
    · next hlt =>
      split
      · next hv =>
        subst hv
        by_cases hk : k' = k
        · subst hk; simp only [get, if_true]; rw [if_neg (by omega)]; exact low (by omega)
        · simp [hk]
      · simp only [get]
    · split
      · next hkp =>
        subst hkp
        split
        · next hv =>
          by_cases hk : k' = p.1
          · simp [hk, hv, low (le_refl _)]
          · simp [hk, get]
        · simp only [get]; split <;> simp_all
      · simp only [get]
        split
        · next hk => rw [if_neg (by omega)]
        · exact ih

theorem get_set_self (h : wf d m) : get d (set d m k v) k = v := by simp [get_set h]

theorem get_set_of_ne (h : wf d m) (hk : k' ≠ k) : get d (set d m k v) k' = get d m k' := by simp [get_set h, hk]

/-- Every entry after a write is the one written or was there before. -/
theorem mem_set {p : Nat × α} (h : p ∈ set d m k v) : (p = (k, v) ∧ v ≠ d k) ∨ p ∈ m := by
  induction m with
  | nil => simp only [set] at h; split at h <;> simp_all
  | cons q m ih =>
    simp only [set] at h
    split at h
    · split at h
      · exact .inr h
      · rcases List.mem_cons.mp h with h | h
        · exact .inl ⟨h, by assumption⟩
        · exact .inr h
    · split at h
      · split at h
        · exact .inr (by simp [h])
        · rcases List.mem_cons.mp h with h | h
          · exact .inl ⟨h, by assumption⟩
          · exact .inr (by simp [h])
      · rcases List.mem_cons.mp h with h | h
        · exact .inr (by simp [h])
        · rcases ih h with h | h
          · exact .inl h
          · exact .inr (by simp [h])

/-- A write keeps the canonical form. -/
theorem wf_set (h : wf d m) : wf d (set d m k v) := by
  refine ⟨?_, fun p hp => ?_⟩
  · induction m with
    | nil => simp only [set]; split <;> simp
    | cons q m ih =>
      obtain ⟨hp, hd⟩ := h
      have hp' := List.pairwise_cons.mp hp
      have ih := ih ⟨hp'.2, fun q hq => hd q (by simp [hq])⟩
      simp only [set]
      split
      · next hlt =>
        split
        · exact hp
        · refine List.pairwise_cons.mpr ⟨fun r hr => ?_, hp⟩
          rcases List.mem_cons.mp hr with hr | hr
          · simpa [hr] using hlt
          · exact lt_trans hlt (hp'.1 r hr)
      · split
        · next hk =>
          split
          · exact hp'.2
          · exact List.pairwise_cons.mpr ⟨fun r hr => by simpa [hk] using hp'.1 r hr, hp'.2⟩
        · refine List.pairwise_cons.mpr ⟨fun r hr => ?_, ih⟩
          rcases mem_set hr with ⟨hr, -⟩ | hr
          · subst hr; show q.1 < k; omega
          · exact hp'.1 r hr
  · rcases mem_set hp with ⟨hp, hv⟩ | hp
    · subst hp; exact hv
    · exact h.2 p hp

/-- Writing many values keeps the canonical form. -/
theorem wf_setAll {ps : List (Nat × α)} (h : wf d m) : wf d (setAll d m ps) := by
  induction ps generalizing m with
  | nil => exact h
  | cons p ps ih => exact ih (wf_set h)

@[simp] theorem setAll_nil : setAll d m [] = m := rfl

@[simp] theorem setAll_cons {p : Nat × α} {ps : List (Nat × α)} :
    setAll d m (p :: ps) = setAll d (set d m p.1 p.2) ps := rfl

/-- A key that no entry of the list names keeps its value. -/
theorem get_setAll_of_not_mem {ps : List (Nat × α)} (h : wf d m) (hk : k ∉ ps.map Prod.fst) :
    get d (setAll d m ps) k = get d m k := by
  induction ps generalizing m with
  | nil => rfl
  | cons p ps ih =>
    simp only [List.map_cons, List.mem_cons, not_or] at hk
    rw [setAll_cons, ih (wf_set h) hk.2, get_set_of_ne h hk.1]

/-- Where the names are distinct, each takes its own value. -/
theorem get_setAll_of_mem {ps : List (Nat × α)} (h : wf d m) (hn : (ps.map Prod.fst).Nodup) {p : Nat × α} (hp : p ∈ ps) :
    get d (setAll d m ps) p.1 = p.2 := by
  induction ps generalizing m with
  | nil => simp at hp
  | cons q ps ih =>
    simp only [List.map_cons, List.nodup_cons] at hn
    rw [setAll_cons]
    rcases List.mem_cons.mp hp with hp | hp
    · subst hp
      rw [get_setAll_of_not_mem (wf_set h) hn.1, get_set_self h]
    · exact ih (wf_set h) hn.2 hp

end Sys2Proof.Sparse
end

