-- ==== Sys2Proof/Laws/Lines.lean ====
section
/-! SUPPORT. The laws of the line space and of the devices' reactions (spec/41_shift_register.md R131 to R134). -/

namespace Sys2Proof.Machine

variable {s : State} {id id' : LineId} {l old new : Level} {ls : List (LineId × Level)} {w : Wiring}
  {level : LineId → Level} {d : Device}

/-! ### Levels -/

theorem line_putLine (h : Sparse.wf Config.low s.lines) :
    (s.putLine id l).line id' = if id' = id then l else s.line id' := Sparse.get_set h

theorem line_lineWrite (h : Sparse.wf Config.low s.lines) :
    (s.lineWrite id l).line id' = if id' = id then l else s.line id' := Sparse.get_set h

/-- A line that is not driven keeps its level (R33). -/
theorem line_lineWriteAll_of_not_mem (h : Sparse.wf Config.low s.lines) (hid : id ∉ ls.map Prod.fst) :
    (s.lineWriteAll ls).line id = s.line id := Sparse.get_setAll_of_not_mem h hid

/-- Distinct lines driven together take their own levels (R53, R60). -/
theorem line_lineWriteAll_of_mem (h : Sparse.wf Config.low s.lines) (hn : (ls.map Prod.fst).Nodup) {p : LineId × Level}
    (hp : p ∈ ls) : (s.lineWriteAll ls).line p.1 = p.2 := Sparse.get_setAll_of_mem h hn hp

theorem linesWf_lineWrite (h : Sparse.wf Config.low s.lines) : Sparse.wf Config.low (s.lineWrite id l).lines :=
  Sparse.wf_set h

theorem linesWf_lineWriteAll (h : Sparse.wf Config.low s.lines) : Sparse.wf Config.low (s.lineWriteAll ls).lines :=
  Sparse.wf_setAll h

/-! ### Reactions: all a device can do -/

/-- A line that does not change level moves no device (R131). -/
@[simp] theorem reactionTo_same : reactionTo w level id l l = none := by simp [reactionTo]

/-- A change of a line the device does not look at moves nothing; the serial line among them (R131). -/
theorem reactionTo_other (hc : id ≠ w.clk) (hl : w.latch ≠ some id) (hk : ∀ act, w.clear ≠ some (id, act)) :
    reactionTo w level id old new = none := by simp [reactionTo, hc, hl, hk]

/-- A falling clock does nothing (R132). -/
theorem reactionTo_clk_fall : reactionTo w level w.clk true false = none := by simp [reactionTo]

/-- A rising clock shifts in the serial level, the clear line being absent or inactive (R132). -/
theorem reactionTo_clk_rise (h : clearActive w level = false) :
    reactionTo w level w.clk false true = some (.shift (level w.ser)) := by simp [reactionTo, h]

/-- A rising latch commits (R133). -/
theorem reactionTo_latch_rise (h : w.latch = some id) (hc : id ≠ w.clk) :
    reactionTo w level id false true = some .latch := by simp [reactionTo, h, hc]

/-- A falling latch does nothing (R133). -/
theorem reactionTo_latch_fall (h : w.latch = some id) (hc : id ≠ w.clk) :
    reactionTo w level id true false = none := by simp [reactionTo, h, hc]

/-- What a device can do at a line event, said once: nothing; a shift, or being held, at a rising clock; a commit at a
rising latch; a clear when the clear line goes active. -/
theorem reactionTo_cases {r : Reaction} (h : reactionTo w level id old new = some r) :
    (r = .shift (level w.ser) ∧ id = w.clk ∧ old = false ∧ new = true ∧ clearActive w level = false) ∨
    (r = .held ∧ id = w.clk ∧ old = false ∧ new = true ∧ clearActive w level = true) ∨
    (r = .latch ∧ w.latch = some id ∧ old = false ∧ new = true) ∨
    (r = .clear ∧ w.clear = some (id, new) ∧ old = !new) := by
  unfold reactionTo at h
  split at h
  · cases h
  · next hne =>
    split at h
    · next hc =>
      split at h
      · next hn =>
        subst hn
        have ho : old = false := by simpa using hne
        split at h
        · next ha => exact .inr (.inl ⟨by simpa using h.symm, hc, ho, rfl, ha⟩)
        · next ha => exact .inl ⟨by simpa using h.symm, hc, ho, rfl, by simpa using ha⟩
      · cases h
    · split at h
      · next hl =>
        split at h
        · next hn =>
          subst hn
          exact .inr (.inr (.inl ⟨by simpa using h.symm, hl, by simpa using hne, rfl⟩))
        · cases h
      · split at h
        · next hk =>
          refine .inr (.inr (.inr ⟨by simpa using h.symm, hk, ?_⟩))
          cases old <;> cases new <;> simp_all
        · cases h

/-- A device keeps its name. -/
@[simp] theorem deviceAfter_id : (s.deviceAfter id old new d).id = d.id := by
  unfold State.deviceAfter
  split
  · rfl
  · split
    · rfl
    · next r _ => cases r <;> rfl

/-- The devices are the same ones after a line event. -/
theorem ids_lineWrite : (s.lineWrite id l).devs.map Device.id = s.devs.map Device.id := by
  simp [Function.comp_def]

end Sys2Proof.Machine
end

