-- ==== Sys2Proof/Laws/Memory.lean ====
section
/-! SUPPORT. The laws of the cell space (spec/20_memory.md): a read after a write, other cells untouched, the canonical
form kept, and the cell map without holes or overlaps. -/

namespace Sys2Proof

namespace Config

variable {cfg : Config} {b b' : Bool} {r r' c c' : Nat}

theorem inGrid_iff : cfg.inGrid r c = true ↔ r < cfg.h ∧ c < cfg.w := by simp [inGrid]

/-- A cell of the grid is a cell of the map (R50). -/
theorem cellAddr_lt (h : cfg.inGrid r c = true) : cfg.cellAddr b r c < cfg.cellCount := by
  obtain ⟨hr, hc⟩ := inGrid_iff.mp h
  have h1 : r * cfg.w + c < cfg.h * cfg.w := by
    calc r * cfg.w + c < r * cfg.w + cfg.w := by omega
      _ = (r + 1) * cfg.w := by ring
      _ ≤ cfg.h * cfg.w := Nat.mul_le_mul_right _ hr
  unfold cellAddr cellCount
  cases b
  · simp; omega
  · simp; omega

theorem offset_lt (h : cfg.inGrid r c = true) : r * cfg.w + c < cfg.h * cfg.w := by
  have := cellAddr_lt (b := false) h
  obtain ⟨hr, hc⟩ := inGrid_iff.mp h
  calc r * cfg.w + c < r * cfg.w + cfg.w := by omega
    _ = (r + 1) * cfg.w := by ring
    _ ≤ cfg.h * cfg.w := Nat.mul_le_mul_right _ hr

/-- Distinct cells of the grid have distinct addresses (R31). -/
theorem cellAddr_inj (h : cfg.inGrid r c = true) (h' : cfg.inGrid r' c' = true)
    (e : cfg.cellAddr b r c = cfg.cellAddr b' r' c') : b = b' ∧ r = r' ∧ c = c' := by
  have ho := offset_lt h
  have ho' := offset_lt h'
  obtain ⟨-, hc⟩ := inGrid_iff.mp h
  obtain ⟨-, hc'⟩ := inGrid_iff.mp h'
  have hb : b = b' := by
    cases b <;> cases b' <;> simp [cellAddr] at e ⊢ <;> omega
  subst hb
  have e' : r * cfg.w + c = r' * cfg.w + c' := by
    simp only [cellAddr] at e; omega
  have hw : 0 < cfg.w := by omega
  have hr : r = r' := by
    have h1 : (r * cfg.w + c) / cfg.w = r := by
      rw [Nat.mul_comm, Nat.mul_add_div hw, Nat.div_eq_of_lt hc, Nat.add_zero]
    have h2 : (r' * cfg.w + c') / cfg.w = r' := by
      rw [Nat.mul_comm, Nat.mul_add_div hw, Nat.div_eq_of_lt hc', Nat.add_zero]
    rw [← h1, ← h2, e']
  subst hr
  exact ⟨rfl, rfl, by omega⟩

end Config

namespace Machine

variable {s : State} {a a' : Nat} {v : Byte}

/-- Reading a cell after a write (R66, one agent). -/
theorem readCell_putCell (h : Memory.wf s.cfg s.fb) :
    (s.putCell a v).readCell a' = if a' = a then v else s.readCell a' := Sparse.get_set h.1

/-- A write of a cell of the map keeps the canonical form. -/
theorem wf_putCell (h : Memory.wf s.cfg s.fb) (ha : a < s.cfg.cellCount) :
    Memory.wf (s.putCell a v).cfg (s.putCell a v).fb := by
  refine ⟨Sparse.wf_set h.1, fun p hp => ?_⟩
  rcases Sparse.mem_set hp with ⟨hp, -⟩ | hp
  · simpa [hp] using ha
  · exact h.2 p hp

/-- The empty list is in canonical form: reset memory. -/
theorem wf_empty (cfg : Config) : Memory.wf cfg [] := ⟨Sparse.wf_nil, by simp⟩

/-- Reading does not depend on anything but the configuration and the cells. -/
theorem readCell_congr {t : State} (hc : t.cfg = s.cfg) (hf : t.fb = s.fb) : t.readCell a = s.readCell a := by
  simp [State.readCell, hc, hf]

end Machine

end Sys2Proof
end

