-- ==== Sys2Proof/Laws/Order.lean ====
section
/-! SUPPORT. The step of an infinite run, and the happens-before relation of Safety.lean: it goes from an earlier group of the trace to a later one, and
what releases is the producer's, what acquires is the loading agent's. -/

namespace Sys2Proof.Machine

variable {cfg : Config} {tr : List (List Event)} {i j : Nat}

/-- Happens-before goes forward in time: positions count from the newest group. -/
theorem HappensBefore.lt (h : HappensBefore cfg tr i j) : j < i := by
  induction h with
  | po _ _ lt _ _ => exact lt
  | sync h => exact h.1
  | trans _ _ h1 h2 => exact Nat.lt_trans h2 h1

/-- No group happens before itself. -/
theorem HappensBefore.irrefl : ¬ HappensBefore cfg tr i i := fun h => Nat.lt_irrefl i h.lt

/-- A group with a selector store holds an event of the producer. -/
theorem actsIn_of_selStore {x : List Event} {v : Bool} (h : .selStore v ∈ x) : ActsIn cfg x .host := ⟨_, h, rfl⟩

/-- A group with a selector load holds an event of the agent that loads. -/
theorem actsIn_of_selLoad {x : List Event} {g : Agent} {v : Bool} (h : .selLoad g v ∈ x) : ActsIn cfg x g := ⟨_, h, rfl⟩

/-- Steps that drive none of the lines keep the configuration where each step does. -/
theorem Undriven.cfg_eq {ids : List LineId} {s t : State}
    (keeps : ∀ a b : State, a.NoReset → step a = .next b → b.cfg = a.cfg) (h : Undriven ids s t) : t.cfg = s.cfg := by
  induction h with
  | refl => rfl
  | snoc _ hn hs _ ih => exact (keeps _ _ hn hs).trans ih

/-- What one step of an infinite run is: the chosen turn, in the state with the packets offered. -/
theorem step_driven (s : State) (turn : Turn) (offered : List Packet) :
    step (s.driven turn offered) =
      takeTurn turn { s with host := s.host ++ offered, agenda := s.agenda.tail, moment := s.moment + 1 } := rfl

/-- A run of step alone is a run whose outside offers nothing and chooses the turn that comes anyway. -/
theorem step_driven_turn (s : State) : step (s.driven s.turn []) = step s := by
  rw [step_driven, List.append_nil]; rfl

end Sys2Proof.Machine
end

