-- ==== Sys2Proof/Laws/PerInstr.lean ====
section
/-! SUPPORT. Facts of every command as syntax, one lemma a constructor. EncodedLength: the packet of a well-formed
command has exactly the length its opcode's format requires (spec/30_encoding.md R83, R84). -/

namespace Sys2Proof.Laws.EncodedLength

/-- The opcode byte of a packet. -/
def opcode (p : Packet) : Nat := (p.getD 0 0).toNat

/-- The packet of the command has the length of R83 and R84, and its opcode is in R85. -/
def Statement (i : Instr) : Prop :=
  ∀ cfg : Config, i.WF cfg → ∃ f, formatOf (opcode (encode i)) = some f ∧
    (encode i).length = f.len cfg (opcode (encode i)) ((encode i).getD 1 0)

theorem bytesLE_length (n v : Nat) : (bytesLE n v).length = n := by simp [bytesLE]

/-- The length of the data that R88's length check lets through. -/
theorem length_of_checks {u : Byte} {data : List Byte} {count len : Nat}
    (h : firstFault [unitCheck u count, lengthCheck data len] = none) : data.length = len := by
  by_cases hu : u.toNat < count <;> by_cases hl : data.length = len <;>
    simp_all [firstFault, unitCheck, lengthCheck, require]

theorem dbAopen : Statement (.dbAopen) :=
  fun _ _ => ⟨_, rfl, rfl⟩

theorem dbArd (row col : Half) : Statement (.dbArd row col) :=
  fun _ _ => ⟨_, rfl, rfl⟩

theorem dbAclose : Statement (.dbAclose) :=
  fun _ _ => ⟨_, rfl, rfl⟩

theorem dbIopen : Statement (.dbIopen) :=
  fun _ _ => ⟨_, rfl, rfl⟩

theorem dbIrd (row col : Half) : Statement (.dbIrd row col) :=
  fun _ _ => ⟨_, rfl, rfl⟩

theorem dbIwr (row col : Half) (val : Byte) : Statement (.dbIwr row col val) :=
  fun _ _ => ⟨_, rfl, rfl⟩

theorem dbIclose : Statement (.dbIclose) :=
  fun _ _ => ⟨_, rfl, rfl⟩

theorem dbSwap : Statement (.dbSwap) :=
  fun _ _ => ⟨_, rfl, rfl⟩

theorem srShiftb (unit imm8 : Byte) : Statement (.srShiftb unit imm8) :=
  fun _ _ => ⟨_, rfl, rfl⟩

theorem srShiftx (unit : Byte) (data : List Byte) : Statement (.srShiftx unit data) :=
  fun cfg h => ⟨.fuv, rfl, by
    have hl := length_of_checks (show firstFault _ = none from h)
    simp [encode, Format.len, opcode, dataLen, hl]; omega⟩

theorem srLatch (unit : Byte) : Statement (.srLatch unit) :=
  fun _ _ => ⟨_, rfl, rfl⟩

theorem srClear (unit : Byte) : Statement (.srClear unit) :=
  fun _ _ => ⟨_, rfl, rfl⟩

theorem srWritex (unit : Byte) (data : List Byte) : Statement (.srWritex unit data) :=
  fun cfg h => ⟨.fuv, rfl, by
    have hl := length_of_checks (show firstFault _ = none from h)
    simp [encode, Format.len, opcode, dataLen, hl]; omega⟩

theorem cgLatchall (unit : Byte) : Statement (.cgLatchall unit) :=
  fun _ _ => ⟨_, rfl, rfl⟩

theorem cgClearall (unit : Byte) : Statement (.cgClearall unit) :=
  fun _ _ => ⟨_, rfl, rfl⟩

theorem pbShiftl (unit : Byte) (data : List Byte) : Statement (.pbShiftl unit data) :=
  fun cfg h => ⟨.fuv, rfl, by
    have hl := length_of_checks (show firstFault _ = none from h)
    simp [encode, Format.len, opcode, dataLen, hl]; omega⟩

theorem pbWritex (unit : Byte) (data : List Byte) : Statement (.pbWritex unit data) :=
  fun cfg h => ⟨.fuv, rfl, by
    have hl := length_of_checks (show firstFault _ = none from h)
    simp [encode, Format.len, opcode, dataLen, hl]; omega⟩

theorem brRdbits (unit : Byte) : Statement (.brRdbits unit) :=
  fun _ _ => ⟨_, rfl, rfl⟩

theorem brRd8 (unit : Byte) : Statement (.brRd8 unit) :=
  fun _ _ => ⟨_, rfl, rfl⟩

theorem brRd16 (unit : Byte) : Statement (.brRd16 unit) :=
  fun _ _ => ⟨_, rfl, rfl⟩

theorem brRd32 (unit : Byte) : Statement (.brRd32 unit) :=
  fun _ _ => ⟨_, rfl, rfl⟩

theorem bwWrbits (unit : Byte) (data : List Byte) : Statement (.bwWrbits unit data) :=
  fun cfg h => ⟨.fuv, rfl, by
    have hl := length_of_checks (show firstFault _ = none from h)
    simp [encode, Format.len, opcode, dataLen, hl]; omega⟩

theorem bwWr8 (unit imm8 : Byte) : Statement (.bwWr8 unit imm8) :=
  fun _ _ => ⟨_, rfl, rfl⟩

theorem bwWr16 (unit : Byte) (imm16 : Half) : Statement (.bwWr16 unit imm16) :=
  fun _ _ => ⟨_, rfl, rfl⟩

theorem bwWr32 (unit : Byte) (imm32 : Word) : Statement (.bwWr32 unit imm32) :=
  fun _ _ => ⟨_, rfl, rfl⟩

theorem pxsWrite (h v : Half) (color : Byte) : Statement (.pxsWrite h v color) :=
  fun _ _ => ⟨_, rfl, rfl⟩

theorem pxsArange : Statement (.pxsArange) :=
  fun _ _ => ⟨_, rfl, rfl⟩

theorem pxsCrange : Statement (.pxsCrange) :=
  fun _ _ => ⟨_, rfl, rfl⟩

theorem pxbWrite (h v : Half) (color : Byte) : Statement (.pxbWrite h v color) :=
  fun _ _ => ⟨_, rfl, rfl⟩

theorem pxbArange : Statement (.pxbArange) :=
  fun _ _ => ⟨_, rfl, rfl⟩

theorem pxbCrange : Statement (.pxbCrange) :=
  fun _ _ => ⟨_, rfl, rfl⟩

theorem pxbPresent : Statement (.pxbPresent) :=
  fun _ _ => ⟨_, rfl, rfl⟩

theorem sysRdreg (reg : Byte) : Statement (.sysRdreg reg) :=
  fun _ _ => ⟨_, rfl, rfl⟩

end Sys2Proof.Laws.EncodedLength
end

