-- ==== Sys2Proof/Tests/Slice0.lean ====
section
/-! SUPPORT. Tests: the well-formedness smoke, decoding, the vectors of spec/95_test_vectors.md (the source of every
expected value), and for each obligation with hypotheses a witness that meets them. -/

set_option maxRecDepth 100000

namespace Sys2Proof.Tests

open Sys2Proof Sys2Proof.Machine

/-! ### Helpers -/

/-- The next state of an outcome; the reset state where there is none. -/
def nextOf : Host.Outcome State Fault Refusal → State
  | .next s => s
  | _ => State.reset

/-- The state after one command, offered in s and taken in one step. -/
def send (s : State) (p : Packet) : State := nextOf (step { s with host := [p], agenda := [] })

/-- The response of the step just taken. -/
def resp (s : State) : Option (List Byte) :=
  match s.trace with
  | [.resp bs] :: _ => some bs
  | _ => none

/-- The reset state of a configuration, everything unspecified 0. -/
def fresh (cfg : Config) : State := State.resetWith cfg Draw.zero

/-- SR and OUT of device j. -/
def regs (s : State) (j : Nat) : Option (Nat × Option Nat) := (s.devs[j]?).map fun d => (d.sr, d.out)

/-- FAULT as the status port shows it. -/
def faultOf (s : State) : Byte := s.statusReg 2

/-- s with the scan engine's address lines at these values. -/
def presenting (s : State) (h v : Nat) : State :=
  let levels := s.cfg.scanH.line.zip (unpack s.cfg.scanH.n h) ++ s.cfg.scanV.line.zip (unpack s.cfg.scanV.n v)
  { s with inputs := Sparse.setAll Config.low [] levels }

/-- s with a reader and a writer transaction open. -/
def opened (s : State) : State := { s with txn := { ao := true, io := true, asnap := s.sel, wsnap := !s.sel } }

/-- The packet accepted, none of its steps taken. -/
def accepted (s : State) (p : Packet) : State := s.accept p []

/-! ### Configurations: the variants T1 to T7 of spec/95, and one for bounds -/

def busOf (lo n : Nat) : Bus := { line := (List.range n).map (· + lo) }
def bused (lo n : Nat) : Config := { Config.ri with readers := [busOf lo n], writers := [busOf lo n] }
def chain0 : Chain := { n := 2, ser := 0, clk := 1, latch := some 2, clear := some 3, clrAct := false, grp := none }
def group0 : ControlGroup := { clk := 4, latch := some 5, clear := some 6, clrAct := false }
def chain1 : Chain := { n := 1, ser := 50, clk := 4, latch := none, clear := none, clrAct := false, grp := some 0 }
def t1 : Config := { Config.ri with banks := [{ n := 1, ser := [7, 8, 9], group := 0 }] }
def t2 : Config := bused 10 9
def t3 : Config := bused 100 40
def t4 : Config := { Config.ri with chains := [{ chain0 with latch := none, clear := none }] }
def t5 : Config := { Config.ri with chains := [chain0, chain1] }
def t6 : Config := bused 10 4
def t7 : Config := { bused 10 12 with scanH := busOf 60 8 }
/-- A group without latch and clear (vector V-PB6). -/
def bareGroup : Config := { Config.ri with groups := [{ group0 with latch := none, clear := none }] }
/-- Narrow domains, for the bounds of R191. -/
def narrow : Config :=
  { Config.ri with
    pxsRmin := 2, pxsRmax := 9, pxsCmin := 3, pxsCmax := 12, pxsKmin := 1, pxsKmax := 14, pxbKmin := 1, pxbKmax := 15 }
/-- No bank for the pixel writer (vector V-PX11). -/
def noBank : Config := { Config.ri with pxsBank := none }

/-! ### Well-formedness: the configurations, and an ill-formed term for each check -/

theorem test_reference_and_variants_are_well_formed :
    ∀ c ∈ [Config.ri, t1, t2, t3, t4, t5, t6, t7] ++ [bareGroup, narrow, noBank, bused 100 16, bused 100 32], c.WF := by
  decide

theorem test_wf_domains_refused : ∀ c ∈ [
    { Config.ri with w := 0 }, { Config.ri with h := 65537 }, { Config.ri with pxbKmin := 6, pxbKmax := 5 },
    { Config.ri with pxsRmin := 151 }, { Config.ri with pxsCmin := 201 }, { Config.ri with pxsKmin := 1, pxsKmax := 0 },
    { Config.ri with banks := [{ n := 2, ser := [7, 8, 9], group := 1 }] }], ¬ Config.WfDomains c := by
  decide

theorem test_wf_n_refused : ∀ c ∈ [
    { Config.ri with chains := [{ chain0 with n := 0 }] }, { Config.ri with banks := [{ n := 0, ser := [7, 8, 9], group := 0 }] },
    { Config.ri with banks := [{ n := 2, ser := [], group := 0 }] }, bused 10 0], ¬ Config.WfN c := by
  decide

theorem test_wf_scanw_refused : ∀ c ∈ [
    { Config.ri with scanH := busOf 60 17 }, { Config.ri with scanV := busOf 60 17 },
    { Config.ri with scanC := busOf 60 9 }], ¬ Config.WfScanw c := by
  decide

theorem test_wf_pxs_refused : ∀ c ∈ [
    { Config.ri with pxsBank := some 1 }, { t1 with pxsCmax := 256 },
    { Config.ri with banks := [{ n := 2, ser := [7, 8], group := 0 }] }], ¬ Config.WfPxs c := by
  decide

/-- One line with two roles, for each of WF_OWN (i) to (vii). -/
theorem test_wf_own_refused : ∀ c ∈ [
    { Config.ri with chains := [{ chain0 with ser := 7 }] }, { Config.ri with chains := [{ chain0 with latch := some 5 }] },
    { Config.ri with chains := [{ chain0 with clk := 4 }] }, { t5 with chains := [chain0, { chain1 with clk := 51 }] },
    { Config.ri with scanC := busOf 20 8 }, { Config.ri with scanV := busOf 27 8 }, { Config.ri with readers := [busOf 10 8, busOf 17 8] },
    { Config.ri with readers := [busOf 3 1] }, { Config.ri with chains := [{ chain0 with clear := some 2 }] }],
    ¬ Config.WfOwn c := by
  decide

/-- WF_OWN (iv) and (v) bar another component only: one reader, or one address bus, may name a line twice. -/
theorem test_wf_own_allows_a_repeated_input : ∀ c ∈ [
    { Config.ri with readers := [{ line := [10, 11, 11, 60, 60] }] },
    { Config.ri with scanH := { line := [20, 21, 20] }, scanV := { line := [28, 28] } }], Config.WF c := by
  decide

/-- The unit, the length and the register number of a command. -/
theorem test_ill_formed_commands_refused : ∀ i ∈ [
    Instr.srShiftb 1 0, .srShiftx 0 [1], .srLatch 1, .srClear 1, .srWritex 1 [1, 2], .cgLatchall 1, .cgClearall 1,
    .pbShiftl 0 [1, 2], .pbWritex 1 [1, 2, 3, 4, 5, 6], .brRdbits 1, .brRd8 1, .brRd16 1, .brRd32 1, .bwWrbits 0 [],
    .bwWr8 1 0, .bwWr16 1 0, .bwWr32 1 0, .sysRdreg 4], ¬ Instr.WF Config.ri i := by
  decide

/-! ### Decoding: every constructor, by bytes written out from R83 and R85 -/

def decodesTo (p : Packet) (i : Instr) : Bool := (decode Config.ri p).toOption == some i

theorem test_decode_double_buffer :
    (decodesTo [0x10] .dbAopen && decodesTo [0x11, 0x96, 0x00, 0xC8, 0x01] (.dbArd 150 456) &&
      decodesTo [0x12] .dbAclose && decodesTo [0x13] .dbIopen && decodesTo [0x14, 0x03, 0x02, 0x05, 0x00] (.dbIrd 515 5) &&
      decodesTo [0x15, 0x03, 0x00, 0x05, 0x00, 0xC8] (.dbIwr 3 5 200) && decodesTo [0x16] .dbIclose &&
      decodesTo [0x17] .dbSwap) = true := by
  decide

theorem test_decode_shift_register :
    (decodesTo [0x20, 0x00, 0xA5] (.srShiftb 0 0xA5) && decodesTo [0x21, 0x00, 0xA5, 0x3C] (.srShiftx 0 [0xA5, 0x3C]) &&
      decodesTo [0x22, 0x00] (.srLatch 0) && decodesTo [0x23, 0x00] (.srClear 0) &&
      decodesTo [0x24, 0x00, 0xA5, 0x3C] (.srWritex 0 [0xA5, 0x3C]) && decodesTo [0x28, 0x00] (.cgLatchall 0) &&
      decodesTo [0x29, 0x00] (.cgClearall 0)) = true := by
  decide

theorem test_decode_bank_and_bus :
    (decodesTo [0x30, 0, 1, 2, 3, 4, 5, 6] (.pbShiftl 0 [1, 2, 3, 4, 5, 6]) &&
      decodesTo [0x31, 0, 1, 2, 3, 4, 5, 6] (.pbWritex 0 [1, 2, 3, 4, 5, 6]) && decodesTo [0x40, 0] (.brRdbits 0) &&
      decodesTo [0x41, 0] (.brRd8 0) && decodesTo [0x42, 0] (.brRd16 0) && decodesTo [0x43, 0] (.brRd32 0) &&
      decodesTo [0x50, 0, 0x0F] (.bwWrbits 0 [0x0F]) && decodesTo [0x51, 0, 0xA7] (.bwWr8 0 0xA7) &&
      decodesTo [0x52, 0, 0xBC, 0x0A] (.bwWr16 0 0x0ABC) &&
      decodesTo [0x53, 0, 0x78, 0x56, 0x34, 0x12] (.bwWr32 0 0x12345678)) = true := by
  decide

theorem test_decode_pixel_and_system :
    (decodesTo [0x60, 0x05, 0x01, 0x03, 0x02, 0xC8] (.pxsWrite 261 515 200) && decodesTo [0x61] .pxsArange &&
      decodesTo [0x62] .pxsCrange && decodesTo [0x68, 0x05, 0x01, 0x03, 0x02, 0xC8] (.pxbWrite 261 515 200) &&
      decodesTo [0x69] .pxbArange && decodesTo [0x6A] .pxbCrange && decodesTo [0x6B] .pxbPresent &&
      decodesTo [0x70, 0x03] (.sysRdreg 3)) = true := by
  decide

/-- V-SY3 to V-SY8, V-SR11 to V-SR13, V-PB4, V-PB5, V-BUS12, V-BUS13, V-CG5, V-PX13: what each packet is rejected by. -/
theorem test_decode_rejects_by_name :
    (∀ p ∈ [[0x70, 4], [0x00], [], [0x17, 0x00], [0x20], [0x18], [0x2A], [0x44], [0x63], [0x6C], [0x71], [0xFF],
        [0x24, 0, 0xA5], [0x31, 0, 0xFF, 0xFF], [0x50, 0], [0x60, 5, 0, 3, 0]],
      decode Config.ri p = .error .illegalCommand) ∧
    ∀ p ∈ [[0x24, 1, 0xA5, 0x3C], [0x24, 1, 0xA5], [0x31, 1, 0, 0, 0, 0, 0, 0], [0x41, 1], [0x28, 1]],
      decode Config.ri p = .error .badUnit := by
  decide

/-- Words as spec/opcode_table.json numbers them: byte 0 least significant. -/
theorem test_table_words_decode :
    decodeTableWord 48 0xC80003000560 = some (.pxsWrite 5 3 200) ∧ decodeTableWord 24 0xA50020 = some (.srShiftb 0 0xA5) ∧
    decodeTableWord 8 0x31 = some (.pbWritex 0 [0, 0, 0, 0, 0, 0]) ∧ decodeTableWord 16 0x0570 = none ∧
    decodeTableWord 8 0x18 = none := by
  decide

/-- R89, R90. -/
theorem test_text_assembles :
    Assembler.assemble "SR.WRITEX 0, [0xA5, 0x3C]".toList = some [0x24, 0x00, 0xA5, 0x3C] ∧
    Assembler.assemble "PB.SHIFTL 0, [[0xFF], [0x00], [0x0F]]".toList = some [0x30, 0x00, 0xFF, 0x00, 0x0F] ∧
    Assembler.assemble "DB.IWR 3, 5, 200 ; row 3, column 5".toList = some [0x15, 0x03, 0x00, 0x05, 0x00, 0xC8] ∧
    Assembler.assemble "BW.WRBITS 0, bits[1,1,1,1,0,0,0,0]".toList = some [0x50, 0x00, 0x0F] ∧
    Assembler.assemble "DB.SWAPS".toList = none ∧
    Pseudo.expand Config.ri (.withActive [(3, 5)]) = some [.dbAopen, .dbArd 3 5, .dbAclose] ∧
    Pseudo.expand Config.ri (.bankLatch 0) = some [.cgLatchall 0] := by
  decide

/-- R90: a group that no unit byte can name has no command, and is not taken for another group. -/
theorem test_bank_on_a_high_group :
    let c := fun g => { Config.ri with banks := [{ n := 2, ser := [7, 8, 9], group := g }] }
    Pseudo.expand (c 255) (.bankClear 0) = some [.cgClearall 255] ∧ Pseudo.expand (c 256) (.bankClear 0) = none ∧
    Pseudo.expand (c 256) (.bankLatch 0) = none := by
  decide

/-- R65 over line events: a clock edge of the producer before the swap, the scan engine's drive after its load. -/
theorem test_line_events_are_ordered :
    HappensBefore Config.ri
      [[.lineEv 40 false true], [.selLoad .scan true], [.selStore true], [.lineEv 1 true false, .devShift (.chain 0)]] 3 0 := by
  refine .trans (.po (j := 2) (g := .host) rfl rfl (by decide) ⟨_, .head _, rfl⟩ ⟨_, .head _, rfl⟩)
    (.trans (.sync (j := 1) ⟨by decide, ⟨_, true, rfl, .head _⟩, ⟨_, .scan, true, rfl, .head _⟩, ?_⟩)
      (.po (g := .scan) rfl rfl (by decide) ⟨_, .head _, rfl⟩ ⟨_, .head _, rfl⟩))
  intros; omega

/-! ### DoubleBuffer (spec/95 section 2) -/

/-- V-DB1. -/
theorem test_reader_transaction :
    let a := send (fresh .ri) [0x10]
    let b := send a [0x11, 3, 0, 5, 0]
    let c := send b [0x12]
    resp a = some [] ∧ a.statusReg 3 = 1 ∧ resp b = some [0] ∧ resp c = some [] ∧ c.statusReg 3 = 0 ∧
      b.trace[1]? = some [.cellRead .host 608 0] := by
  decide

/-- V-DB2: the cell address is 30959. -/
theorem test_writer_transaction :
    let a := send (fresh .ri) [0x13]
    let b := send a [0x15, 3, 0, 5, 0, 0xC8]
    let c := send b [0x14, 3, 0, 5, 0]
    let d := send c [0x16]
    a.statusReg 3 = 0x0A ∧ b.fb = [(30959, 0xC8)] ∧ resp c = some [0xC8] ∧ d.statusReg 3 = 0 := by
  decide

/-- V-DB14: the last cell of buffer 1. -/
theorem test_last_cell : (send (send (fresh .ri) [0x13]) [0x15, 0x96, 0, 0xC8, 0, 0x7F]).fb = [(60701, 0x7F)] := by decide

/-- V-DB3, E2: the swap toggles the selector; a reader then reads buffer 1. -/
theorem test_swap :
    let a := send { fresh .ri with fb := [(30959, 0xC8)] } [0x17]
    let b := send a [0x10]
    a.statusReg 0 = 1 ∧ b.statusReg 3 = 5 ∧ resp (send b [0x11, 3, 0, 5, 0]) = some [0xC8] ∧
      (send a [0x17]).statusReg 0 = 0 := by
  decide

/-- V-DB4 to V-DB10, V-DB13. -/
theorem test_double_buffer_faults :
    let r := send (fresh .ri) [0x10]
    let w := send (fresh .ri) [0x13]
    resp (send r [0x11, 0x96, 0, 0xC8, 0]) = some [0] ∧ faultOf (send r [0x11, 0x97, 0, 0, 0]) = 0x86 ∧
    faultOf (send (fresh .ri) [0x11, 0, 0, 0, 0]) = 0x85 ∧ faultOf (send (fresh .ri) [0x11, 0x97, 0, 0, 0]) = 0x85 ∧
    faultOf (send r [0x10]) = 0x85 ∧ faultOf (send w [0x17]) = 0x85 ∧ (send w [0x17]).sel = false ∧
    faultOf (send w [0x68, 5, 0, 3, 0, 0xC8]) = 0x85 ∧ faultOf (send (fresh .ri) [0x12]) = 0x85 := by
  decide

/-! ### Shift registers -/

/-- The start of the chain vectors: every register 0; L3 and L6 inactive. -/
def start : State := fresh .ri

/-- V-SR1: 24 line steps; L0 ends at 1. -/
theorem test_shift_byte :
    let a := send start [0x20, 0, 0xA5]
    regs a 0 = some (0xA5, some 0) ∧ a.line 0 = true ∧ a.line 1 = false ∧ a.trace.length = 26 := by
  decide

/-- V-SR3, E3; then V-SR4 and V-SR5. -/
theorem test_shift_latch_clear :
    let a := send start [0x21, 0, 0xA5, 0x3C]
    let b := send a [0x22, 0]
    let c := send b [0x23, 0]
    regs a 0 = some (0xA53C, some 0) ∧ regs b 0 = some (0xA53C, some 0xA53C) ∧ b.chipValue (.chain 0) 1 = 0xA5 ∧
      b.chipValue (.chain 0) 0 = 0x3C ∧ regs c 0 = some (0, some 0xA53C) ∧ regs (send c [0x22, 0]) 0 = some (0, some 0) := by
  decide

/-- V-SR6: the far chip's byte is pushed out. -/
theorem test_shift_pushes_out : regs (send (send start [0x24, 0, 0xA5, 0x3C]) [0x20, 0, 0xFF]) 0 =
    some (0x3CFF, some 0xA53C) := by decide

/-- V-SR8: 52 groups: an acceptance, 48 line steps of 16 ticks, 2 of the latch, a response. -/
theorem test_write_exact :
    let a := send start [0x24, 0, 0x01, 0x80]
    regs a 0 = some (0x0180, some 0x0180) ∧ a.trace.length = 52 ∧ a.line 0 = false := by
  decide

/-- V-SR9, V-SR10 (T4). -/
theorem test_absent_lines :
    let a := send (fresh t4) [0x22, 0]
    let b := send (send (fresh t4) [0x23, 0]) [0x24, 0, 0xA5, 0x3C]
    a.statusReg 1 = 1 ∧ resp a = some [] ∧ a.lines = (fresh t4).lines ∧ b.statusReg 1 = 3 ∧ regs b 0 = some (0xA53C, none) := by
  decide

/-- V-CG1, V-CG2 with s = 0, V-CG3 (T5). -/
theorem test_control_group :
    let full := { fresh t5 with devs := (fresh t5).devs.map fun (d : Device) => { d with sr := 0x7F } }
    let a := send (send full [0x29, 0]) [0x28, 0]
    let b := send a [0x31, 0, 0, 5, 0, 3, 0, 0xC8]
    let c := send a [0x22, 1]
    (a.devs.map fun d => (d.sr, d.out)) = [(0x7F, some 0), (0, some 0), (0, some 0), (0, some 0), (0, some 0)] ∧
    (b.devs.map fun d => (d.sr, d.out)) =
      [(0x7F, some 0), (0, some 0), (5, some 5), (3, some 3), (0xC8, some 0xC8)] ∧
    c.statusReg 1 = 1 ∧ c.lines = a.lines := by
  decide

/-- V-CG2 with s = 1, V-CG4: the shared clock shifts every device on it (R273). -/
theorem test_shared_clock :
    let s1 := (fresh t5).putLine 50 true
    (regs (send s1 [0x31, 0, 0, 5, 0, 3, 0, 0xC8]) 1 = some (0xFF, some 0xFF)) ∧
    let c := send ((fresh t5).putLine 7 true) [0x20, 1, 0x81]
    c.devs.map Device.sr = [0, 0x81, 0xFF, 0, 0] := by
  decide

/-- R134, R132, U19: an edge of a clock while the clear line is active leaves the register empty. -/
theorem test_clock_while_clearing :
    let ones := (fresh .ri).devs.map fun (d : Device) => { d with sr := 1 }
    let s : State := { (fresh .ri).putLine 3 false with devs := ones }
    regs ((s.putLine 0 true).lineWrite 1 true) 0 = some (0, some 0) := by
  decide

/-! ### Parallel banks -/

/-- V-PB1 (T1), E4. -/
theorem test_bank_write :
    let a := send (fresh t1) [0x31, 0, 0xFF, 0, 0x0F]
    a.devs.tail.map Device.out = [some 0xFF, some 0, some 0x0F] ∧ a.trace.length = 28 := by
  decide

/-- V-PB2. -/
theorem test_bank_shift :
    let a := send (fresh .ri) [0x30, 0, 0, 5, 0, 3, 0, 0xC8]
    a.devs.tail.map (fun d => (d.sr, d.out)) = [(5, some 0), (3, some 0), (0xC8, some 0)] ∧
      [7, 8, 9].map a.line = [true, true, false] := by
  decide

/-- V-PB6. -/
theorem test_bank_without_latch :
    let a := send (fresh bareGroup) [0x31, 0, 0, 5, 0, 3, 0, 0xC8]
    a.devs.tail.map (fun d => (d.sr, d.out)) = [(5, none), (3, none), (0xC8, none)] ∧ a.statusReg 1 = 1 := by
  decide

/-! ### Parallel buses -/

/-- V-BUS1. -/
theorem test_bus_loopback :
    let a := send (fresh .ri) [0x51, 0, 0xA7]
    resp (send a [0x40, 0]) = some [0xA7] ∧ resp (send a [0x41, 0]) = some [0xA7] ∧
      resp (send a [0x42, 0]) = some [0xA7, 0] ∧ resp (send a [0x43, 0]) = some [0xA7, 0, 0, 0] ∧
      (busOf 10 8).line.map a.line = [true, true, true, false, false, true, false, true] := by
  decide

/-- V-BUS2, V-BUS3 (T6), V-BUS6 (T2), V-BUS14 (T7). -/
theorem test_bus_narrow_and_odd :
    resp (send (send (fresh .ri) [0x50, 0, 0x0F]) [0x41, 0]) = some [0x0F] ∧
    resp (send (send (fresh t6) [0x51, 0, 0xAD]) [0x41, 0]) = some [0x0D] ∧
    resp (send (send (fresh t2) [0x52, 0, 0xFF, 1]) [0x42, 0]) = some [0xFF, 1] ∧
    resp (send (send (fresh t2) [0x52, 0, 0xFF, 1]) [0x40, 0]) = some [0xFF, 1] ∧
    resp (send (send (fresh t7) [0x52, 0, 0xBC, 0xFA]) [0x42, 0]) = some [0xBC, 0x0A] := by
  decide

/-- V-BUS4, V-BUS5, V-BUS7. -/
theorem test_bus_width_faults :
    faultOf (send (fresh t2) [0x51, 0, 1]) = 0x81 ∧ (send (fresh t2) [0x51, 0, 1]).lines = (fresh t2).lines ∧
    faultOf (send (fresh t2) [0x41, 0]) = 0x81 ∧ faultOf (send (fresh t3) [0x52, 0, 0, 0]) = 0x82 := by
  decide

/-- V-BUS8 to V-BUS11 (T3). -/
theorem test_bus_wide :
    let high := send (fresh t3) [0x50, 0, 0xFF, 0xFF, 0xFF, 0xFF, 0xFF]
    let one := send (fresh t3) [0x50, 0, 0, 0, 0, 0, 8]
    resp (send high [0x43, 0]) = some [0xFF, 0xFF, 0xFF, 0xFF] ∧ resp (send one [0x43, 0]) = some [0, 0, 0, 0] ∧
    resp (send one [0x40, 0]) = some [0, 0, 0, 0, 8] ∧
    resp (send (send high [0x53, 0, 0, 0, 0, 0]) [0x40, 0]) = some [0, 0, 0, 0, 0xFF] ∧
    resp (send (send (fresh t3) [0x53, 0, 0x78, 0x56, 0x34, 0x12]) [0x43, 0]) = some [0x78, 0x56, 0x34, 0x12] := by
  decide

/-! ### Pixel writers -/

/-- V-PX2, V-PX3, V-PX4. -/
theorem test_shift_register_pixel :
    let a := send (fresh .ri) [0x60, 0xC8, 0, 0x96, 0, 0xFF]
    let b := send a [0x60, 0xC9, 0, 3, 0, 0xC8]
    let c := send a [0x60, 5, 0, 0x97, 0, 0xC8]
    a.devs.tail.map Device.out = [some 0xC8, some 0x96, some 0xFF] ∧ b.devs = a.devs ∧ b.lines = a.lines ∧
      b.statusReg 1 = 4 ∧ c.devs = a.devs ∧ c.statusReg 1 = 4 := by
  decide

/-- V-PX5, V-PX11, V-PX12, E6. -/
theorem test_domains :
    resp (send (fresh .ri) [0x61]) = some [0, 0, 0x96, 0, 0, 0, 0xC8, 0] ∧ resp (send (fresh .ri) [0x62]) = some [0, 0xFF] ∧
    resp (send (fresh .ri) [0x69]) = some [0, 0, 0x96, 0, 0, 0, 0xC8, 0] ∧ resp (send (fresh .ri) [0x6A]) = some [0, 0xFF] ∧
    faultOf (send (fresh noBank) [0x61]) = 0x84 := by
  decide

/-- V-PX6, V-PX8, V-PX10, E5. -/
theorem test_bus_scan_pixel :
    let a := send (fresh .ri) [0x68, 5, 0, 3, 0, 0xC8]
    let b := send a [0x6B]
    let c := send b [0x68, 5, 0, 3, 0, 7]
    a.fb = [(30959, 0xC8)] ∧ a.sel = false ∧ b.sel = true ∧ c.fb = [(608, 7), (30959, 0xC8)] ∧
      (send a [0x68, 0xC9, 0, 0, 0, 1]).fb = a.fb ∧ (send a [0x68, 0, 0, 0x97, 0, 1]).statusReg 1 = 4 := by
  decide

/-! ### The scan engine -/

/-- n steps of the scan engine. -/
def scans : Nat → State → State
  | 0, s => s
  | n + 1, s => scans n (scanStep s)

/-- V-SC2, V-SC7: the cell of buffer 1, though the command processor has faulted. -/
theorem test_scan_iteration :
    let s := { presenting (fresh .ri) 5 3 with
      fb := [(30959, 0xC8)], sel := true, fault := { v := true, cause := 5 } }
    let a := scans 6 s
    a.sc = { phase := .sH, h := 5, v := 3, snap := true, val := 0xC8 } ∧
      s.cfg.scanC.line.map a.line = [false, false, false, true, false, false, true, true] ∧
      a.trace[1]? = some [.cellRead .scan 30959 0xC8] := by
  decide

/-- V-SC4, V-SC5; V-SC3 is in range. -/
theorem test_scan_out_of_range :
    (scans 3 (presenting (fresh .ri) 201 3)).sc.phase = .sH ∧ (scans 3 (presenting (fresh .ri) 5 151)).sc.phase = .sH ∧
    (scans 3 (presenting (fresh .ri) 201 3)).lines = (fresh .ri).lines ∧
    (scans 3 (presenting (fresh .ri) 200 150)).sc.phase = .sSel := by
  decide

/-! ### The machine -/

/-- V-SY1, V-SY2. -/
theorem test_status_registers :
    ([0, 1, 2, 3].map fun r => resp (send (fresh .ri) [0x70, r])) = [some [0], some [0], some [0], some [0]] ∧
    resp (send (send (fresh .ri) [0x13]) [0x70, 3]) = some [0x0A] := by
  decide

/-- V-SY9, P5: a faulted processor accepts nothing; the status port shows the fault. -/
theorem test_faulted_processor_halts :
    let a := send (fresh .ri) [0]
    let b := send a [0x17]
    a.statusPort = [0, 0, 0x83, 0] ∧ b.host = [[0x17]] ∧ b.sel = false ∧ resp a = none := by
  decide

/-- M2: the stale reader, in the sequentially consistent machine. -/
theorem test_stale_reader :
    let s := { presenting (fresh .ri) 5 3 with fb := [(30959, 1)], sel := true }
    let a := scans 4 s
    let b := send (send a [0x6B]) [0x68, 5, 0, 3, 0, 2]
    (scans 1 b).sc.val = 2 ∧ b.sc.snap = true := by
  decide

/-- Single steps of the processor: acceptance, the store, the response. -/
theorem test_single_steps :
    let s := { fresh .ri with host := [[0x17]], agenda := [.cp, .cp, .cp] }
    let a := nextOf (step s)
    let b := nextOf (step a)
    let c := nextOf (step b)
    a.cp.busy = true ∧ a.sel = false ∧ b.sel = true ∧ b.cp.busy = true ∧ c.cp.busy = false ∧
      c.trace = [[.resp []], [.selStore true], [.cmd [0x17]]] := by
  decide

/-- Reset in the middle of a faulted run; the environment's step. -/
theorem test_reset_and_environment :
    let s := { fresh .ri with fault := { v := true, cause := 5 }, sel := true, agenda := [.reset t5 Draw.zero] }
    let e := { fresh .ri with agenda := [.env [(20, true), (4, true)]] }
    (nextOf (step s)).statusPort = [0, 0, 0, 0] ∧ (nextOf (step s)).devs.length = 5 ∧
      (nextOf (step e)).inputs = [(20, true)] ∧ (nextOf (step e)).line 4 = false := by
  decide

/-! ### Witnesses: for each obligation with hypotheses, states and operands that meet them all

Named witness_<obligation>. A clause is met at a boundary of its range; the statements with no hypothesis have none. -/

theorem inv_of {s : State} (wf : s.cfg.WF := by decide) (canonical : s.Canonical := by decide)
    (devices : s.DevicesFit := by decide) (txn : s.TxnConsistent := by decide) (fault : s.FaultConsistent := by decide)
    (scan : s.ScanInGrid := by decide) : s.Inv := ⟨wf, canonical, devices, txn, fault, scan⟩

theorem reset_inv : State.reset.Inv := inv_of

theorem witness_DecodeOfEncodeIsTheCommand : Instr.WF Config.ri (.srWritex 0 [0xA5, 0x3C]) ∧
    Instr.WF Config.ri (.sysRdreg 3) := by decide

theorem witness_EncodeOfDecodeIsThePacket : (decode Config.ri [0x11, 0xFF, 0xFF, 0xFF, 0xFF]).toOption =
    some (.dbArd 0xFFFF 0xFFFF) := by decide

theorem witness_UnlistedOpcodesAreIllegal : ∀ op ∈ ([0x0F, 0x18, 0x1F, 0x25, 0x27, 0x2A, 0x2F, 0x32, 0x3F, 0x44, 0x4F,
    0x54, 0x5F, 0x63, 0x67, 0x6C, 0x6F, 0x71, 0xFF] : List Byte), formatOf op.toNat = none := by decide

theorem witness_PacketChecksComeInOrder :
    formatOf 0x24 = some .fuv ∧ unitCount Config.ri 0x24 = some 1 ∧ Format.len Config.ri 0x24 0 .fuv = 4 ∧
    formatOf 0x11 = some .frc ∧ unitCount Config.ri 0x11 = none ∧ ([] : Packet).length + 1 ≠ Format.len Config.ri 0x11 0 .frc ∧
    formatOf 0x70 = some .fr ∧ unitCount Config.ri 0x70 = none ∧ Format.len Config.ri 0x70 4 .fr = 2 := by decide

theorem witness_StepRunsTheDecodedCommand : ∀ p ∈ ([[0x17], [0x18]] : List Packet),
    let s := { State.reset with host := [p] }
    s.turn = .command ∧ s.cp.busy = false ∧ s.fault.v = false ∧ s.host = [p] ∧
      (decode s.cfg [0x17]).toOption = some .dbSwap ∧ decode s.cfg [0x18] = .error .illegalCommand := by decide

theorem witness_FetchedWordRuns :
    (decode State.reset.cfg (wordPacket State.reset.cfg 8 0x17)).toOption = some .dbSwap := by decide

/-- A command that ends, and one that faults. -/
theorem witness_SingleStepsReachWhatExecAnswers :
    let s := accepted State.reset [0x22, 0]
    let f := accepted State.reset [0x12]
    s.cp.busy = true ∧ s.cp.pos = 0 ∧ (decode s.cfg s.cp.cmd).toOption = some (.srLatch 0) ∧
      (∃ t, exec (.srLatch 0) s = .next t) ∧ f.cp.busy = true ∧ f.cp.pos = 0 ∧
      (decode f.cfg f.cp.cmd).toOption = some .dbAclose ∧ ∃ t, exec .dbAclose f = .next t :=
  ⟨rfl, rfl, by decide, ⟨_, rfl⟩, rfl, rfl, by decide, ⟨_, rfl⟩⟩

/-- One command of every constructor passes its checks in some state. -/
theorem witness_EveryCheckedCommandResponds :
    (∀ i ∈ [Instr.dbAopen, .dbIopen, .dbSwap, .srShiftb 0 1, .srShiftx 0 [1, 2], .srLatch 0, .srClear 0, .srWritex 0 [1, 2],
      .cgLatchall 0, .cgClearall 0, .pbShiftl 0 [1, 2, 3, 4, 5, 6], .pbWritex 0 [1, 2, 3, 4, 5, 6], .brRdbits 0, .brRd8 0,
      .brRd16 0, .brRd32 0, .bwWrbits 0 [1], .bwWr8 0 1, .bwWr16 0 1, .bwWr32 0 1, .pxsWrite 1 2 3, .pxsArange, .pxsCrange,
      .pxbWrite 1 2 3, .pxbArange, .pxbCrange, .pxbPresent, .sysRdreg 3], commandFault i State.reset = none) ∧
    ∀ i ∈ [Instr.dbArd 150 200, .dbAclose, .dbIrd 150 200, .dbIwr 150 200 255, .dbIclose],
      commandFault i (opened State.reset) = none := by decide

theorem witness_FaultEntryHaltsTheProcessor :
    let p := accepted State.reset [0x18]
    let s := { State.reset with fault := { v := true, cause := 5 }, host := [[0x17]], agenda := [.cp] }
    commandFault (.dbArd 151 0) (opened State.reset) = some .index ∧ p.cp.busy = true ∧
      decode p.cfg p.cp.cmd = .error .illegalCommand ∧ s.fault.v = true ∧ s.cp.busy = false ∧ s.NoReset ∧
      ∃ t, step s = .next t :=
  ⟨by decide, rfl, by decide, rfl, rfl, by decide, ⟨_, rfl⟩⟩

theorem witness_WidthPreconditionsFault :
    (0 : Byte).toNat < t2.readers.length ∧ 8 < (t2.readerAt 0).n ∧ (0 : Byte).toNat < t2.writers.length ∧
    8 < (t2.writerAt 0).n ∧ 16 < ((bused 100 17).readerAt 0).n ∧ 16 < ((bused 100 17).writerAt 0).n := by decide

theorem witness_IndexOutsideTheGridFaults :
    State.reset.cfg.h ≤ (151 : Half).toNat ∧ State.reset.cfg.w ≤ (201 : Half).toNat ∧ (opened State.reset).txn.ao = true ∧
    (opened State.reset).txn.io = true := by decide

theorem witness_TransactionStateIsRequired :
    (opened State.reset).txn.ao = true ∧ (opened State.reset).txn.io = true ∧ State.reset.txn.ao = false ∧
    State.reset.txn.io = false ∧ commandFault .dbSwap (opened State.reset) = some .protocol ∧
    commandFault .dbAclose State.reset = some .protocol ∧ commandFault .dbIclose State.reset = some .protocol := by decide

theorem witness_BadOperandsFault :
    (Instr.srLatch 1).operandFault Config.ri = some .badUnit ∧ (Instr.sysRdreg 4).operandFault Config.ri = some .illegalCommand ∧
    (fresh noBank).cfg.pxsBank = none := by decide

theorem witness_AbsentLineIsANoOpWithDiagnostic :
    (0 : Byte).toNat < t4.chains.length ∧ (t4.chainAt 0).latch = none ∧ (t4.chainAt 0).clear = none ∧
    (0 : Byte).toNat < bareGroup.groups.length ∧ (bareGroup.groupAt 0).latch = none ∧ (bareGroup.groupAt 0).clear = none := by
  decide

theorem witness_DiagnosticsAreSticky :
    let s := { State.reset with diag := { noLatch := true, noClear := true, oor := true } }
    s.NoReset ∧ (∃ t, step s = .next t) ∧ s.diag.noLatch = true ∧ s.diag.noClear = true ∧ s.diag.oor = true :=
  ⟨by decide, ⟨_, rfl⟩, rfl, rfl, rfl⟩

/-- The states of the transaction statements: none open, both open. -/
theorem witness_ReaderTransactionOpensAndCloses : State.reset.txn.ao = false ∧ (opened State.reset).txn.ao = true := by decide

theorem witness_WriterTransactionOpensAndCloses : State.reset.txn.io = false ∧ (opened State.reset).txn.io = true := by decide

theorem witness_CellReadsReturnTheSnapshotsCell :
    (150 : Half).toNat < State.reset.cfg.h ∧ (200 : Half).toNat < State.reset.cfg.w ∧ (opened State.reset).txn.ao = true ∧
    (opened State.reset).txn.io = true := by decide

theorem witness_InactiveWriteChangesOneCell :
    Memory.wf (opened State.reset).cfg (opened State.reset).fb ∧ (opened State.reset).txn.io = true ∧
    (150 : Half).toNat < (opened State.reset).cfg.h ∧ (200 : Half).toNat < (opened State.reset).cfg.w := by decide

theorem witness_SwapAndPresentComplementTheSelector : State.reset.txn.io = false := rfl

theorem witness_OnlySwapMovesTheSelector :
    let s := { State.reset with host := [[0x17]] }
    (∃ t, exec .dbSwap s = .next t ∧ t.sel ≠ s.sel) ∧ s.NoReset ∧ ∃ t, step s = .next t ∧ t.sel ≠ s.sel :=
  ⟨⟨_, rfl, by decide⟩, by decide, ⟨_, rfl, by decide⟩⟩

/-- The chain statements: the first and, in T5, the last chain; every frame of its length. -/
theorem witness_ShiftByteLoadsEightBits :
    (fresh t5).Inv ∧ (fresh t5).ControlIdle ∧ (1 : Byte).toNat < (fresh t5).cfg.chains.length :=
  ⟨inv_of, by decide, by decide⟩

theorem witness_ShiftFrameLoadsTheFrame :
    State.reset.Inv ∧ State.reset.ControlIdle ∧ (0 : Byte).toNat < State.reset.cfg.chains.length ∧
    ([0xA5, 0x3C] : List Byte).length = (State.reset.cfg.chainAt 0).n :=
  ⟨reset_inv, by decide, by decide, by decide⟩

theorem witness_LatchPulseCommits :
    State.reset.Inv ∧ State.reset.ControlIdle ∧ (0 : Byte).toNat < State.reset.cfg.chains.length ∧
    (State.reset.cfg.chainAt 0).latch = some 2 ∧ (0 : Byte).toNat < State.reset.cfg.groups.length ∧
    (State.reset.cfg.groupAt (0 : Byte).toNat).latch = some 5 :=
  ⟨reset_inv, by decide, by decide, by decide, by decide, by decide⟩

theorem witness_ClearPulseEmpties :
    State.reset.Inv ∧ State.reset.ControlIdle ∧ (0 : Byte).toNat < State.reset.cfg.chains.length ∧
    (State.reset.cfg.chainAt 0).clear = some 3 ∧ (0 : Byte).toNat < State.reset.cfg.groups.length ∧
    (State.reset.cfg.groupAt (0 : Byte).toNat).clear = some 6 :=
  ⟨reset_inv, by decide, by decide, by decide, by decide, by decide⟩

/-- With a latch of its own (chain 0) and without one (chain 1 of T5). -/
theorem witness_WriteExactShiftsThenLatches :
    (fresh t5).Inv ∧ (fresh t5).ControlIdle ∧ ((fresh t5).cfg.chainAt 0).latch = some 2 ∧
    ([0xA5, 0x3C] : List Byte).length = ((fresh t5).cfg.chainAt 0).n ∧ (1 : Byte).toNat < (fresh t5).cfg.chains.length ∧
    ([0x81] : List Byte).length = ((fresh t5).cfg.chainAt 1).n ∧ ((fresh t5).cfg.chainAt 1).latch = none :=
  ⟨inv_of, by decide, by decide, by decide, by decide, by decide, by decide⟩

theorem witness_FarEndChipShowsTheFirstByte :
    State.reset.Inv ∧ State.reset.ControlIdle ∧ (0 : Byte).toNat < State.reset.cfg.chains.length ∧
    ([0xA5, 0x3C] : List Byte).length = (State.reset.cfg.chainAt 0).n ∧ (State.reset.cfg.chainAt 0).latch = some 2 :=
  ⟨reset_inv, by decide, by decide, by decide, by decide⟩

theorem witness_BankShiftLoadsEveryLane :
    State.reset.Inv ∧ State.reset.ControlIdle ∧ (0 : Byte).toNat < State.reset.cfg.banks.length ∧
    ([0, 5, 0, 3, 0, 200] : List Byte).length = State.reset.cfg.bankLen 0 :=
  ⟨reset_inv, by decide, by decide, by decide⟩

/-- With and without a latch line of the group. -/
theorem witness_BankWriteShiftsThenLatches :
    (∀ s ∈ [State.reset, fresh bareGroup], s.Inv ∧ s.ControlIdle ∧ (0 : Byte).toNat < s.cfg.banks.length ∧
      ([0, 5, 0, 3, 0, 200] : List Byte).length = s.cfg.bankLen 0) ∧
    (State.reset.cfg.groupAt 0).latch = some 5 ∧ ((fresh bareGroup).cfg.groupAt 0).latch = none := by
  refine ⟨fun s hs => ?_, by decide, by decide⟩
  have h : s = State.reset ∨ s = fresh bareGroup := by simpa using hs
  rcases h with rfl | rfl
  · exact ⟨reset_inv, by decide, by decide, by decide⟩
  · exact ⟨inv_of, by decide, by decide, by decide⟩

theorem witness_LanesCommitTogether : State.reset.Inv := reset_inv

/-- A latch about to rise with SR and OUT different. -/
def aboutToLatch : State :=
  let ones := State.reset.devs.map fun (d : Device) => { d with sr := 1 }
  { accepted State.reset [0x22, 0] with devs := ones, agenda := [.cp] }

theorem witness_OutputsMoveOnlyAtALatch :
    aboutToLatch.Inv ∧ aboutToLatch.NoReset ∧ aboutToLatch.turn ≠ .command ∧ ∃ t, step aboutToLatch = .next t ∧
      ∃ d e : Device, aboutToLatch.devs[0]? = some d ∧ t.devs[0]? = some e ∧ e.out ≠ d.out :=
  ⟨inv_of, by decide, by decide, ⟨_, rfl, ⟨_, _, rfl, rfl, by decide⟩⟩⟩

theorem witness_BusReadsReturnTheLevels :
    (0 : Byte).toNat < State.reset.cfg.readers.length ∧ (State.reset.cfg.readerAt 0).line.length = 8 ∧
    (0 : Byte).toNat < (fresh (bused 100 16)).cfg.readers.length ∧
    ((fresh (bused 100 16)).cfg.readerAt 0).line.length = 16 := by decide

theorem witness_BusWritesDriveTheLines :
    State.reset.Inv ∧ (fresh (bused 100 16)).Inv ∧ (fresh t3).Inv ∧ (0 : Byte).toNat < State.reset.cfg.writers.length ∧
    ([0x0F] : List Byte).length = byteCount (State.reset.cfg.writerAt 0).line.length ∧
    (State.reset.cfg.writerAt 0).line.length = 8 ∧ ((fresh (bused 100 16)).cfg.writerAt 0).line.length = 16 ∧
    ((fresh t3).cfg.writerAt 0).line.length = 40 :=
  ⟨reset_inv, inv_of, inv_of, by decide, by decide, by decide, by decide, by decide⟩

/-- The states after the write and, undriven, after a step of the scan engine that follows. -/
theorem witness_LoopbackReadsBackTheValue :
    State.reset.Inv ∧ (fresh (bused 100 16)).Inv ∧ (fresh t3).Inv ∧
    (∀ c ∈ [Config.ri, bused 100 16, t3], (0 : Byte).toNat < c.writers.length ∧ (0 : Byte).toNat < c.readers.length ∧
      c.writerAt 0 = c.readerAt 0) ∧
    ∀ s ∈ [nextOf (exec (.bwWr8 0 0xA7) State.reset), nextOf (exec (.bwWr16 0 0x0ABC) (fresh (bused 100 16))),
      nextOf (exec (.bwWr32 0 0x12345678) (fresh t3))],
      ∃ q, step s = .next q ∧ Undriven (s.cfg.writerAt 0).line s q := by
  refine ⟨reset_inv, inv_of, inv_of, by decide, fun s hs => ?_⟩
  have undriven : ∀ s : State, s.turn = .scan → s.sc.phase = .sH →
      ∃ q, step s = .next q ∧ Undriven (s.cfg.writerAt 0).line s q := fun s ht hp => by
    refine ⟨scanStep s.begun, by simp [step, takeTurn, ht], .snoc .refl (by simp [State.NoReset, ht, Turn.isReset])
      (by simp [step, takeTurn, ht]) fun id _ old new h => ?_⟩
    simp [newEvents, scanStep, State.begun, hp, State.emit] at h
  have h : s = nextOf (exec (.bwWr8 0 0xA7) State.reset) ∨ s = nextOf (exec (.bwWr16 0 0x0ABC) (fresh (bused 100 16))) ∨
      s = nextOf (exec (.bwWr32 0 0x12345678) (fresh t3)) := by simpa using hs
  rcases h with rfl | rfl | rfl <;> exact undriven _ rfl rfl

/-- Just beyond each bound, one after another, both backends. -/
theorem witness_PixelOutOfRangeIsRejected :
    (fresh narrow).cfg.pxsBank.isSome = true ∧ (2 : Half) < narrow.pxsCmin ∧ narrow.pxsCmax < (13 : Half) ∧
    (1 : Half) < narrow.pxsRmin ∧ narrow.pxsRmax < (10 : Half) ∧ (0 : Byte) < narrow.pxsKmin ∧ narrow.pxsKmax < (15 : Byte) ∧
    (fresh narrow).txn.io = false ∧ 1 ≤ narrow.w ∧ 1 ≤ narrow.h ∧ narrow.w ≤ (201 : Half).toNat ∧
    narrow.h ≤ (151 : Half).toNat ∧ (0 : Byte) < narrow.pxbKmin ∧ narrow.pxbKmax < (16 : Byte) := by decide

theorem witness_BusScanPixelWritesTheInactiveCell :
    Memory.wf State.reset.cfg State.reset.fb ∧ State.reset.txn.io = false ∧ (200 : Half).toNat < State.reset.cfg.w ∧
    (150 : Half).toNat < State.reset.cfg.h ∧ State.reset.cfg.pxbKmin ≤ (255 : Byte) ∧
    (255 : Byte) ≤ State.reset.cfg.pxbKmax := by decide

/-- At the maxima, with a latch line of the group and without. -/
theorem witness_ShiftRegisterPixelCommitsItsFields :
    State.reset.Inv ∧ State.reset.ControlIdle ∧ (fresh bareGroup).Inv ∧ (fresh bareGroup).ControlIdle ∧
    ∀ c ∈ [Config.ri, bareGroup], c.pxsBank = some 0 ∧ c.pxsCmin ≤ (200 : Half) ∧ (200 : Half) ≤ c.pxsCmax ∧
      c.pxsRmin ≤ (150 : Half) ∧ (150 : Half) ≤ c.pxsRmax ∧ c.pxsKmin ≤ (255 : Byte) ∧ (255 : Byte) ≤ c.pxsKmax :=
  ⟨reset_inv, by decide, inv_of, by decide, by decide⟩

theorem witness_DomainsAreAnswered : State.reset.cfg.pxsBank.isSome = true ∧ (fresh noBank).cfg.pxsBank = none := ⟨rfl, rfl⟩

theorem witness_PixelIsActiveOnlyAfterThePresent :
    State.reset.Inv ∧ State.reset.txn.io = false ∧ (200 : Half).toNat < State.reset.cfg.w ∧
    (150 : Half).toNat < State.reset.cfg.h ∧ State.reset.cfg.pxbKmin ≤ (255 : Byte) ∧
    (255 : Byte) ≤ State.reset.cfg.pxbKmax :=
  ⟨reset_inv, rfl, by decide, by decide, by decide, by decide⟩

theorem witness_StatusRegistersAreRead : (3 : Byte).toNat ≤ 3 ∧ 3 < (4 : Byte).toNat := by decide

theorem witness_ScanIterationDrivesTheActiveCell :
    let s := presenting (fresh .ri) 200 150
    s.Inv ∧ s.sc.phase = .sH ∧
      s.cfg.inGrid (s.sampleAddr s.cfg.scanV).toNat (s.sampleAddr s.cfg.scanH).toNat = true :=
  ⟨inv_of, rfl, by decide⟩

theorem witness_ScanHoldsOutsideTheGrid : ∀ s ∈ [presenting (fresh .ri) 201 3, presenting (fresh .ri) 5 151],
    s.sc.phase = .sH ∧ s.cfg.inGrid (s.sampleAddr s.cfg.scanV).toNat (s.sampleAddr s.cfg.scanH).toNat = false := by decide

theorem witness_ScanEngineStaysOnItsSide : State.reset.Canonical := by decide

theorem witness_CommandsStayOffTheScanLines : State.reset.Inv ∧ ∃ t, exec (.bwWr8 0 0xFF) State.reset = .next t :=
  ⟨reset_inv, ⟨_, rfl⟩⟩

theorem witness_CommandAndScanStepsCommute :
    aboutToLatch.Inv ∧ (cpStep aboutToLatch).fb = aboutToLatch.fb ∧ (cpStep aboutToLatch).sel = aboutToLatch.sel :=
  ⟨inv_of, rfl, rfl⟩

/-! A run from reset in which the scan engine moves for ever. -/

/-- The run. -/
def scanRun : Nat → State
  | 0 => State.reset
  | n + 1 => scanStep (scanRun n).begun

theorem scanStep_keeps (s : State) : (scanStep s).agenda = s.agenda ∧ (scanStep s).host = s.host ∧
    (scanStep s).cp = s.cp := by
  unfold scanStep
  split <;> exact ⟨rfl, rfl, rfl⟩

theorem scanRun_idle (n : Nat) : (scanRun n).agenda = [] ∧ (scanRun n).host = [] ∧ (scanRun n).cp.busy = false := by
  induction n with
  | zero => exact ⟨rfl, rfl, rfl⟩
  | succ n ih =>
    obtain ⟨ha, hh, hc⟩ := scanStep_keeps (scanRun n).begun
    simp only [scanRun, ha, hh, hc]
    exact ⟨by simp [State.begun, ih.1], ih.2.1, ih.2.2⟩

theorem scanRun_turn (n : Nat) : (scanRun n).turn = .scan := by
  obtain ⟨ha, hh, hc⟩ := scanRun_idle n
  simp [State.turn, defaultTurn, ha, hh, hc]

theorem scanRun_step (n : Nat) : step (scanRun n) = .next (scanRun (n + 1)) := by
  simp [step, takeTurn, scanRun_turn, scanRun]

/-! A run in which the host never stops offering: a swap, then a scan step, for ever. -/

def busyTurns (n : Nat) : Turn := if n % 2 = 0 then .command else .scan
def busyOffers (n : Nat) : List Packet := if n % 2 = 0 then [[0x17]] else []

/-- The run. -/
def busyRun : Nat → State
  | 0 => State.reset
  | n + 1 => nextOf (step ((busyRun n).driven (busyTurns n) (busyOffers n)))

/-- What holds of it between two steps. -/
def Ready (s : State) : Prop := s.host = [] ∧ s.cp = Cp.idle ∧ s.fault.v = false ∧ s.txn.io = false

theorem swap_step (s : State) (h : Ready s) :
    ∃ t, step (s.driven .command [[0x17]]) = .next t ∧ Ready t := by
  obtain ⟨cfg, fb, sel, diag, ⟨fv, fc⟩, ⟨ao, io, asn, wsn⟩, lines, devs, cp, sc, inputs, host, agenda, trace, moment⟩ := s
  obtain ⟨rfl, rfl, rfl, rfl⟩ := h
  exact ⟨_, rfl, rfl, rfl, rfl, rfl⟩

theorem scan_step (s : State) (h : Ready s) : ∃ t, step (s.driven .scan []) = .next t ∧ Ready t := by
  refine ⟨scanStep (s.driven .scan []).begun, rfl, ?_⟩
  obtain ⟨hh, hc, hf, hi⟩ := h
  unfold scanStep
  split <;> exact ⟨by simp [State.driven, State.begun, State.emit, State.lineWriteAll, State.putLines, hh], hc, hf, hi⟩

theorem busyRun_step (n : Nat) (h : Ready (busyRun n)) :
    step ((busyRun n).driven (busyTurns n) (busyOffers n)) = .next (busyRun (n + 1)) ∧ Ready (busyRun (n + 1)) := by
  have key : ∃ t, step ((busyRun n).driven (busyTurns n) (busyOffers n)) = .next t ∧ Ready t := by
    unfold busyTurns busyOffers
    split
    · exact swap_step _ h
    · exact scan_step _ h
  obtain ⟨t, ht, hr⟩ := key
  have e : busyRun (n + 1) = t := by rw [busyRun, ht]; rfl
  rw [e]; exact ⟨ht, hr⟩

theorem busyRun_ready (n : Nat) : Ready (busyRun n) := by
  induction n with
  | zero => exact ⟨rfl, rfl, rfl, rfl⟩
  | succ n ih => exact (busyRun_step n ih).2

theorem witness_ScanEngineNeverStops : IsRun busyRun busyTurns busyOffers ∧ Fair busyRun busyTurns :=
  ⟨fun n => (busyRun_step n (busyRun_ready n)).1, fun n => ⟨2 * n + 1, by omega, by simp [busyTurns]⟩,
    fun n h => by simp [(busyRun_ready n).2.1, Cp.idle] at h⟩

/-! A run in which the address moves once, after one whole iteration. -/

def dwellTurns (n : Nat) : Turn := if n = 6 then .env [(20, true)] else .scan

/-- The run. -/
def dwellRun : Nat → State
  | 0 => State.reset
  | n + 1 => nextOf (step ((dwellRun n).driven (dwellTurns n) []))

theorem dwellRun_isRun : IsRun dwellRun dwellTurns fun _ => [] := fun n => by
  have key : ∃ t, step ((dwellRun n).driven (dwellTurns n) []) = .next t := by
    unfold dwellTurns
    split <;> exact ⟨_, rfl⟩
  obtain ⟨t, ht⟩ := key
  rw [dwellRun, ht]; rfl

theorem scanStep_outside (s : State) : (scanStep s).cfg = s.cfg ∧ (scanStep s).inputs = s.inputs := by
  unfold scanStep
  split <;> exact ⟨rfl, rfl⟩

theorem dwellRun_scan {n : Nat} (h : n ≠ 6) : dwellRun (n + 1) = scanStep ((dwellRun n).driven .scan []).begun := by
  simp [dwellRun, dwellTurns, h, step, takeTurn, State.driven, State.turn, nextOf]

theorem dwellRun_cfg (n : Nat) : (dwellRun n).cfg = Config.ri := by
  induction n with
  | zero => rfl
  | succ n ih =>
    by_cases h : n = 6
    · subst h; exact ih
    · rw [dwellRun_scan h, (scanStep_outside _).1]; exact ih

theorem dwellRun_idle (n : Nat) : (dwellRun n).cp.busy = false := by
  induction n with
  | zero => rfl
  | succ n ih =>
    by_cases h : n = 6
    · subst h; exact ih
    · rw [dwellRun_scan h, (scanStep_keeps _).2.2]; exact ih

/-- Only the environment's step moves the address. -/
theorem dwellRun_still {n : Nat} (h : n ≠ 6) (id : LineId) (hid : id ∈ addressLines (dwellRun n).cfg) :
    (dwellRun (n + 1)).sample id = (dwellRun n).sample id := by
  have hi : (dwellRun (n + 1)).inputs = (dwellRun n).inputs := by rw [dwellRun_scan h, (scanStep_outside _).2]; rfl
  rw [dwellRun_cfg] at hid
  have ho : Config.ri.outputLines.contains id = false := by revert id; decide
  simp only [State.sample, dwellRun_cfg, ho, Bool.false_eq_true, if_false, State.input, hi]

theorem dwellRun_dwells : DwellsAlong dwellRun dwellTurns := by
  refine ⟨fun n => ?_, fun m hm => ?_⟩
  · by_cases h : n = 6
    · subst h; exact fun hp => absurd (by decide) hp
    · exact fun _ => dwellRun_still h
  · have h6 : m = 6 := Classical.byContradiction fun h => by
      obtain ⟨id, hid, hne⟩ := hm
      exact hne (dwellRun_still h id hid)
    subst h6
    refine ⟨0, 5, ⟨by decide, rfl, rfl, rfl, by decide, fun i h0 h5 => ?_⟩, by decide, fun i _ h => ?_⟩
    · interval_cases i <;> decide
    · rintro ⟨id, hid, hne⟩
      exact hne (dwellRun_still (by omega) id hid)

/-- The segment of one iteration; and the run whose address moves at step 6, from one of the grid to one of the grid that
is held for ever. -/
theorem witness_DwellingAddressIsTheOneServed :
    ((scanRun 0).Inv ∧ (scanRun 0).turn = .scan ∧ (scanRun 0).sc.phase = .sH ∧
      (∀ i, i < 5 → step (scanRun i) = .next (scanRun (i + 1)) ∧ Dwells (scanRun i) (scanRun (i + 1)) ∧ (scanRun i).NoReset) ∧
      (∀ i, 0 < i → i ≤ 5 → (scanRun i).sc.phase ≠ .sH) ∧ (scanRun 5).sc.phase = .sDrv) ∧
    IsRun dwellRun dwellTurns (fun _ => []) ∧ (dwellRun 0).Inv ∧ (∀ n, (dwellTurns n).isReset = false) ∧
    DwellsAlong dwellRun dwellTurns ∧ AddressMoves (dwellRun 6) (dwellRun 7) ∧ AddressInGrid (dwellRun 6) ∧
    Fair dwellRun dwellTurns ∧ (∀ i, 7 ≤ i → ¬ AddressMoves (dwellRun i) (dwellRun (i + 1))) ∧ AddressInGrid (dwellRun 7) := by
  refine ⟨⟨reset_inv, by decide, rfl, fun i hi => ⟨scanRun_step i, ?_, ?_⟩, ?_, by decide⟩, dwellRun_isRun, reset_inv,
    fun n => ?_, dwellRun_dwells, ⟨20, by decide, by decide⟩, by unfold AddressInGrid; decide, ?_, fun i hi => ?_,
    by unfold AddressInGrid; decide⟩
  · unfold Dwells; revert i; decide
  · simp [State.NoReset, scanRun_turn, Turn.isReset]
  · intro i h0 h5
    interval_cases i <;> decide
  · unfold dwellTurns; split <;> rfl
  · exact ⟨fun n => ⟨n + 7, by omega, by simp [dwellTurns]⟩, fun n hb => by simp [dwellRun_idle n] at hb⟩
  · rintro ⟨id, hid, hne⟩
    exact hne (dwellRun_still (by omega) id hid)

theorem reset_coherent : State.reset.Coherent := ⟨fun _ => rfl, rfl, trivial⟩

theorem witness_StepsKeepTheTraceCoherent : State.reset.Inv ∧ State.reset.Coherent ∧ ∃ t, step State.reset = .next t :=
  ⟨reset_inv, reset_coherent, ⟨_, rfl⟩⟩

theorem witness_SelectorCountsTheStores :
    State.reset.sel = (storeCount State.reset.events % 2 == 1) ∧ ∃ t, step State.reset = .next t := ⟨rfl, ⟨_, rfl⟩⟩

/-- A pixel written and presented; the scan engine has loaded the selector and read the cell (P2). -/
def published : State :=
  { State.reset with
    fb := [(30959, 0xC8)], sel := true,
    trace := [[.cellRead .scan 30959 0xC8], [.selLoad .scan true], [.resp []], [.selStore true], [.resp []],
      [.cellWrite 30959 0xC8]] }

theorem published_coherent : published.Coherent := by
  refine ⟨fun a => ?_, rfl, ?_⟩
  · by_cases h : a = 30959
    · subst h; rfl
    · have h' : ¬ 30959 = a := fun e => h e.symm
      simp [published, State.readCell, State.events, lastWrite, Sparse.get, h, h', State.reset, State.resetWith]
  · exact ⟨rfl, rfl, trivial, trivial, trivial, trivial, trivial⟩

theorem witness_PublishedCellsAreReadWhole :
    published.Coherent ∧
    published.events = [] ++ .cellRead .scan 30959 0xC8 :: [] ++ .selLoad .scan true :: [.resp []] ++
      .selStore true :: [.resp [], .cellWrite 30959 0xC8] ∧ (∀ x, Event.selStore x ∉ [.resp []]) ∧
    (∀ x, Event.cellWrite 30959 x ∉ []) ∧ ∀ x, Event.cellWrite 30959 x ∉ [.resp []] :=
  ⟨published_coherent, rfl, by simp, by simp, by simp⟩

/-- A read of a written cell, and a read that returns the reset value; the store and the load of P2 synchronise. -/
theorem witness_ReadsReturnNoOverwrittenValue :
    published.Coherent ∧ published.trace[0]? = some [.cellRead .scan 30959 0xC8] ∧
    ({ State.reset with trace := [[.cellRead .host 608 0]] } : State).Coherent ∧
    SyncsWith published.trace 3 1 ∧ published.trace[1]? = some [.selLoad .scan true] ∧
    published.trace[5]? = some [.cellWrite 30959 0xC8] ∧ ActsIn Config.ri [.cellWrite 30959 0xC8] .host ∧
    ActsIn Config.ri [.cellRead .scan 30959 0xC8] .scan := by
  refine ⟨published_coherent, rfl, ⟨fun _ => rfl, rfl, rfl, trivial⟩, ⟨by decide, ⟨_, true, rfl, .head _⟩,
    ⟨_, .scan, true, rfl, .head _⟩, fun k z v h1 h3 hz => ?_⟩, rfl, rfl, ⟨_, .head _, rfl⟩, ⟨_, .head _, rfl⟩⟩
  obtain rfl : k = 2 := by omega
  obtain rfl : [Event.resp []] = z := by simpa [published] using hz
  simp

/-- Between the selector load and the cell read of an iteration, a pixel is written in the other buffer. -/
def quietRun : Nat → State
  | 0 => { State.reset with
      sc := { State.reset.sc with phase := .sSel }, host := [[0x68, 5, 0, 3, 0, 0xC8]], agenda := [.scan, .command, .scan] }
  | n + 1 => nextOf (step (quietRun n))

theorem witness_QuietReaderSeesTheLoadedFrame :
    0 < 2 ∧ (quietRun 0).Inv ∧ (quietRun 0).turn = .scan ∧ (quietRun 0).sc.phase = .sSel ∧
    (∀ i, i ≤ 2 → step (quietRun i) = .next (quietRun (i + 1)) ∧ Quiesces (quietRun i) (quietRun (i + 1)) ∧
      (quietRun i).NoReset) ∧
    (∀ i, 0 < i → i < 2 → (quietRun i).turn ≠ .scan) ∧ (quietRun 2).turn = .scan := by
  refine ⟨by decide, inv_of, rfl, rfl, fun i hi => ?_,
    fun i h0 h2 => by interval_cases i; decide, by decide⟩
  have e0 : newEvents (quietRun 0) (quietRun 1) = [.selLoad .scan false] := by decide
  have e1 : newEvents (quietRun 1) (quietRun 2) = [.resp [], .cellWrite 30959 0xC8, .cmd [0x68, 5, 0, 3, 0, 0xC8]] := by decide
  have e2 : newEvents (quietRun 2) (quietRun 3) = [.cellRead .scan 0 0] := by decide
  have hsnap : (quietRun 1).sc.snap = false := by decide
  have hgrid : (quietRun 1).cfg.h * (quietRun 1).cfg.w = 30351 := by decide
  have hao : (quietRun 1).txn.ao = false := by decide
  interval_cases i
  · exact ⟨rfl, fun a v h => by simp [e0] at h, by decide⟩
  · refine ⟨rfl, fun a v h => ?_, by decide⟩
    simp only [e1, List.mem_cons, List.not_mem_nil, or_false, reduceCtorEq, false_or, Event.cellWrite.injEq] at h
    exact ⟨fun _ hb => by simp [inBuffer, hsnap, hgrid, h.1] at hb, fun hx => by simp [hao] at hx⟩
  · exact ⟨rfl, fun a v h => by simp [e2] at h, by decide⟩

theorem witness_ResetMeetsTheInvariant : ∀ c ∈ [Config.ri, t1, t3, t4, t5, bareGroup], c.WF := by decide

theorem witness_EveryStepKeepsTheInvariant : aboutToLatch.Inv ∧ ∃ t, step aboutToLatch = .next t :=
  ⟨inv_of, ⟨_, rfl⟩⟩

/-- In the middle of a command, with the latch line high: not idle, but it will be. -/
theorem witness_ControlLinesSettle :
    let s := cpStep aboutToLatch
    s.Inv ∧ s.Settles ∧ ¬ s.ControlIdle ∧ (∃ t, step s = .next t) ∧ State.reset.Settles ∧ State.reset.cp.busy = false :=
  ⟨inv_of, by decide, by decide, ⟨_, rfl⟩, by decide, rfl⟩

theorem witness_ActiveBufferIsNeverWritten :
    let s := { State.reset with host := [[0x68, 200, 0, 150, 0, 1]] }
    s.Inv ∧ s.NoReset ∧ (∃ t, step s = .next t) ∧ s.cfg.inGrid 150 200 = true :=
  ⟨inv_of, by decide, ⟨_, rfl⟩, by decide⟩

theorem witness_EnvironmentMovesOnlyInputLines :
    State.reset.Canonical ∧ (([(20, true), (4, true)] : List (LineId × Level)).map Prod.fst).Nodup ∧
    20 ∈ State.reset.cfg.inputLines ∧ 4 ∉ State.reset.cfg.inputLines := by decide

theorem witness_ResetLeavesTheSpecsValues : ∀ c ∈ [Config.ri, t1, t3, t4, t5, bareGroup], c.WF := by decide

/-- From a faulted state in the middle of anything: a well-formed configuration, and one that is not. -/
theorem witness_ResetIsTheExitFromAnyState :
    let s := fun c => ({ State.reset with fault := { v := true, cause := 5 }, agenda := [.reset c Draw.zero] } : State)
    (s t5).turn = .reset t5 Draw.zero ∧ t5.WF ∧
    (s (bused 10 0)).turn = .reset (bused 10 0) Draw.zero ∧ ¬ (bused 10 0).WF :=
  ⟨rfl, by decide, rfl, by decide⟩

end Sys2Proof.Tests
end

section
/-! SUPPORT. The shape of every command's step list: lines driven and diagnostics, or one access to the state, and then
one response. -/

namespace Sys2Proof.Machine

/-- A primitive that drives lines or sets a diagnostic: it needs nothing of the transactions and the grid. -/
def Prim.isDrive : Prim → Bool
  | .lineWrite _ _ => true
  | .lineWriteAll _ => true
  | .diag _ => true
  | _ => false

/-- What the checks of a command guarantee where its primitive is taken: the transaction it needs is open or closed, the
cell it reaches is in the grid (R112, R113, R191). -/
def Prim.Permitted (s : State) : Prim → Prop
  | .openActive => s.txn.ao = false
  | .closeActive => s.txn.ao = true
  | .openInactive => s.txn.io = false
  | .closeInactive => s.txn.io = true
  | .readActive r c => s.txn.ao = true ∧ s.cfg.inGrid r c = true
  | .readInactive r c => s.txn.io = true ∧ s.cfg.inGrid r c = true
  | .writeInactive r c _ => s.txn.io = true ∧ s.cfg.inGrid r c = true
  | .swap => s.txn.io = false
  | .writePixel r c _ => s.txn.io = false ∧ (s.cfg.WF → s.cfg.inGrid r c = true)
  | _ => True

variable {s : State} {i : Instr} {cfg : Config} {p : Prim} {ps : List Prim}

theorem not_isResponse_of_isDrive (h : p.isDrive = true) : p.isResponse = false := by
  cases p <;> simp_all [Prim.isDrive, Prim.isResponse]

/-- Driving lines is permitted in every state. -/
theorem permitted_of_isDrive (h : p.isDrive = true) : p.Permitted s := by
  cases p <;> simp_all [Prim.isDrive, Prim.Permitted]

/-- Responding is permitted in every state. -/
theorem permitted_of_isResponse (h : p.isResponse = true) : p.Permitted s := by
  cases p <;> simp_all [Prim.isResponse, Prim.Permitted]

/-! ### The step lists that drive lines -/

theorem isDrive_of_mem_shiftByteSteps {ser clk : LineId} {b : Byte} (h : p ∈ shiftByteSteps ser clk b) :
    p.isDrive = true :=
  List.all_eq_true.mp (rfl : (shiftByteSteps ser clk b).all Prim.isDrive = true) p h

theorem isDrive_of_mem_shiftFrameSteps {ser clk : LineId} {frame : List Byte} (h : p ∈ shiftFrameSteps ser clk frame) :
    p.isDrive = true := by
  obtain ⟨b, -, hb⟩ := List.mem_flatMap.mp h
  exact isDrive_of_mem_shiftByteSteps hb

theorem isDrive_of_mem_latchSteps {o : Option LineId} (h : p ∈ latchSteps o) : p.isDrive = true := by
  cases o <;> exact List.all_eq_true.mp (by rfl) p h

theorem isDrive_of_mem_clearSteps {o : Option (LineId × Level)} (h : p ∈ clearSteps o) : p.isDrive = true := by
  cases o <;> exact List.all_eq_true.mp (by rfl) p h

theorem isDrive_of_mem_bankShiftSteps {b : Bank} {frames : List (List Byte)} (h : p ∈ bankShiftSteps cfg b frames) :
    p.isDrive = true := by
  obtain ⟨k, -, hk⟩ := List.mem_flatMap.mp h
  exact List.all_eq_true.mp (by rfl) p hk

theorem isDrive_of_mem_bankWriteSteps {b : Bank} {frames : List (List Byte)} (h : p ∈ bankWriteSteps cfg b frames) :
    p.isDrive = true :=
  (List.mem_append.mp h).elim isDrive_of_mem_bankShiftSteps isDrive_of_mem_latchSteps

/-! ### All step lists -/

/-- The two shapes of a command's step list. The one access of the second is permitted once the command's checks have
passed, and it is a swap in DB.SWAP and PXB.PRESENT only. -/
inductive CommandShape (cfg : Config) (i : Instr) : List Prim → Prop
  | drive (body : List Prim) (r : Prim) (drives : ∀ p ∈ body, p.isDrive = true) (responds : r.isResponse = true) :
      CommandShape cfg i (body ++ [r])
  | access (p r : Prim) (silent : p.isResponse = false) (responds : r.isResponse = true)
      (swaps : p = .swap → i = .dbSwap ∨ i = .pxbPresent)
      (permitted : ∀ s : State, s.cfg = cfg → commandFault i s = none → p.Permitted s) : CommandShape cfg i [p, r]

/-- A pixel in the bus-scan writer's domain is a cell of the grid (R196). -/
theorem inGrid_of_inDomain {h v : Half} {color : Byte} (wf : cfg.WF) (hd : inDomain (pxbDomain cfg) h v color = true) :
    cfg.inGrid v.toNat h.toNat = true := by
  obtain ⟨⟨hw, -, hh, -⟩, -⟩ := wf
  simp only [inDomain, Bool.and_eq_true, decide_eq_true_eq] at hd
  obtain ⟨⟨⟨⟨⟨-, (hc : h.toNat ≤ cfg.w - 1)⟩, -⟩, (hr : v.toNat ≤ cfg.h - 1)⟩, -⟩, -⟩ := hd
  exact Config.inGrid_iff.mpr ⟨by omega, by omega⟩

/-- PXB.WRITE checks the transaction first; a pixel out of range is rejected, any other is a cell of the grid (R197). -/
theorem pxbWrite_shape (h v : Half) (color : Byte) :
    CommandShape cfg (.pxbWrite h v color) (pxbWriteSteps cfg h v color) := by
  unfold pxbWriteSteps
  split
  · next hd =>
    refine .access _ _ rfl rfl nofun fun s hs hf => ⟨?_, fun wf => ?_⟩
    · simpa [commandFault, pxbWriteFault, require_eq_none] using hf
    · exact inGrid_of_inDomain wf (hs ▸ hd)
  · exact .drive [_] _ (by simp [Prim.isDrive]) rfl

/-- PXS.WRITE drives its bank or rejects the pixel (R193). -/
theorem pxsWrite_shape (h v : Half) (color : Byte) :
    CommandShape cfg (.pxsWrite h v color) (pxsWriteSteps cfg h v color) := by
  unfold pxsWriteSteps
  split
  · exact .drive _ _ (fun _ => isDrive_of_mem_bankWriteSteps) rfl
  · exact .drive [_] _ (by simp [Prim.isDrive]) rfl

/-- Every command's step list is of one of the two shapes. -/
theorem commandSteps_shape (cfg : Config) (i : Instr) : CommandShape cfg i (commandSteps cfg i) := by
  cases i with
  | dbAopen =>
    exact .access _ _ rfl rfl nofun fun s _ hf => by
      simpa [Prim.Permitted, commandFault, dbAopenFault, require_eq_none] using hf
  | dbArd row col =>
    exact .access _ _ rfl rfl nofun fun s _ hf => by
      simpa [Prim.Permitted, commandFault, dbArdFault, firstFault_eq_none, require_eq_none] using hf
  | dbAclose =>
    exact .access _ _ rfl rfl nofun fun s _ hf => by
      simpa [Prim.Permitted, commandFault, dbAcloseFault, require_eq_none] using hf
  | dbIopen =>
    exact .access _ _ rfl rfl nofun fun s _ hf => by
      simpa [Prim.Permitted, commandFault, dbIopenFault, require_eq_none] using hf
  | dbIrd row col =>
    exact .access _ _ rfl rfl nofun fun s _ hf => by
      simpa [Prim.Permitted, commandFault, dbIrdFault, firstFault_eq_none, require_eq_none] using hf
  | dbIwr row col val =>
    exact .access _ _ rfl rfl nofun fun s _ hf => by
      simpa [Prim.Permitted, commandFault, dbIwrFault, firstFault_eq_none, require_eq_none] using hf
  | dbIclose =>
    exact .access _ _ rfl rfl nofun fun s _ hf => by
      simpa [Prim.Permitted, commandFault, dbIcloseFault, require_eq_none] using hf
  | dbSwap =>
    exact .access _ _ rfl rfl (fun _ => .inl rfl) fun s _ hf => by
      simpa [Prim.Permitted, commandFault, dbSwapFault, require_eq_none] using hf
  | pxbPresent =>
    exact .access _ _ rfl rfl (fun _ => .inr rfl) fun s _ hf => by
      simpa [Prim.Permitted, commandFault, pxbPresentFault, require_eq_none] using hf
  | pxbWrite h v color => exact pxbWrite_shape h v color
  | pxsWrite h v color => exact pxsWrite_shape h v color
  | brRdbits u => exact .access _ _ rfl rfl nofun fun _ _ _ => trivial
  | brRd8 u => exact .access _ _ rfl rfl nofun fun _ _ _ => trivial
  | brRd16 u => exact .access _ _ rfl rfl nofun fun _ _ _ => trivial
  | brRd32 u => exact .access _ _ rfl rfl nofun fun _ _ _ => trivial
  | srShiftb u b => exact .drive _ _ (fun _ => isDrive_of_mem_shiftByteSteps) rfl
  | srShiftx u data => exact .drive _ _ (fun _ => isDrive_of_mem_shiftFrameSteps) rfl
  | srLatch u => exact .drive _ _ (fun _ => isDrive_of_mem_latchSteps) rfl
  | srClear u => exact .drive _ _ (fun _ => isDrive_of_mem_clearSteps) rfl
  | srWritex u data =>
    exact .drive _ _ (fun _ h =>
      (List.mem_append.mp h).elim isDrive_of_mem_shiftFrameSteps isDrive_of_mem_latchSteps) rfl
  | cgLatchall u => exact .drive _ _ (fun _ => isDrive_of_mem_latchSteps) rfl
  | cgClearall u => exact .drive _ _ (fun _ => isDrive_of_mem_clearSteps) rfl
  | pbShiftl u data => exact .drive _ _ (fun _ => isDrive_of_mem_bankShiftSteps) rfl
  | pbWritex u data => exact .drive _ _ (fun _ => isDrive_of_mem_bankWriteSteps) rfl
  | bwWrbits u data => exact .drive [_] _ (by simp [Prim.isDrive]) rfl
  | bwWr8 u b => exact .drive [_] _ (by simp [Prim.isDrive]) rfl
  | bwWr16 u x => exact .drive [_] _ (by simp [Prim.isDrive]) rfl
  | bwWr32 u x => exact .drive [_] _ (by simp [Prim.isDrive]) rfl
  | pxsArange => exact .drive [] _ nofun rfl
  | pxsCrange => exact .drive [] _ nofun rfl
  | pxbArange => exact .drive [] _ nofun rfl
  | pxbCrange => exact .drive [] _ nofun rfl
  | sysRdreg reg => exact .drive [] _ nofun rfl

/-! ### What the shapes give -/

/-- A step list is a body without a response, and one response (R80). -/
theorem CommandShape.eq_body_append (h : CommandShape cfg i ps) :
    ∃ body r, ps = body ++ [r] ∧ (∀ p ∈ body, p.isResponse = false) ∧ r.isResponse = true := by
  cases h with
  | drive body r drives responds =>
    exact ⟨body, r, rfl, fun p hp => not_isResponse_of_isDrive (drives p hp), responds⟩
  | access p r silent responds => exact ⟨[p], r, rfl, by simpa using silent, responds⟩

/-- What a step list holds: lines driven, responses, or the one access, which then is its first primitive. -/
theorem CommandShape.mem_cases (h : CommandShape cfg i ps) (hp : p ∈ ps) :
    p.isDrive = true ∨ p.isResponse = true ∨
    (p ∉ ps.tail ∧ (p = .swap → i = .dbSwap ∨ i = .pxbPresent) ∧
      ∀ s : State, s.cfg = cfg → commandFault i s = none → p.Permitted s) := by
  cases h with
  | drive body r drives responds =>
    rcases List.mem_append.mp hp with hp | hp
    · exact .inl (drives p hp)
    · exact .inr (.inl (List.mem_singleton.mp hp ▸ responds))
  | access q r silent responds swaps permitted =>
    rcases List.mem_pair.mp hp with rfl | rfl
    · have not_tail : p ∉ [r] := fun hr => by simp [List.mem_singleton.mp hr, responds] at silent
      exact .inr (.inr ⟨not_tail, swaps, permitted⟩)
    · exact .inr (.inl responds)

/-- In a state where its checks pass, every primitive of a command is permitted (R241). -/
theorem permitted_of_commandFault_eq_none (hf : commandFault i s = none) (hp : p ∈ commandSteps s.cfg i) :
    p.Permitted s := by
  rcases (commandSteps_shape s.cfg i).mem_cases hp with hd | hr | ⟨-, -, permitted⟩
  · exact permitted_of_isDrive hd
  · exact permitted_of_isResponse hr
  · exact permitted s rfl hf

/-- The primitives after the first are permitted in every state. -/
theorem permitted_tail (hp : p ∈ (commandSteps cfg i).tail) : p.Permitted s := by
  rcases (commandSteps_shape cfg i).mem_cases (List.mem_of_mem_tail hp) with hd | hr | ⟨not_tail, -⟩
  · exact permitted_of_isDrive hd
  · exact permitted_of_isResponse hr
  · exact absurd hp not_tail

/-- Only DB.SWAP and PXB.PRESENT have a swap in their step lists. -/
theorem swap_mem_commandSteps (h : .swap ∈ commandSteps cfg i) : i = .dbSwap ∨ i = .pxbPresent := by
  rcases (commandSteps_shape cfg i).mem_cases h with hd | hr | ⟨-, swaps, -⟩
  · cases hd
  · cases hr
  · exact swaps rfl

end Sys2Proof.Machine
end

section
/-! SUPPORT. What a step of any agent is made of: a relation that holds of the few elementary changes of the state, and
is reflexive and transitive, holds of every step but a reset. -/

namespace Sys2Proof.Machine

/-- A reflexive and transitive relation of states that holds of every elementary change the agents make: the beginning of
a turn, a fault entry, the acceptance of a packet, a permitted primitive, a phase of the scan engine, a move of the
environment. -/
structure StepClosed (R : State → State → Prop) : Prop where
  refl       : ∀ s, R s s
  trans      : ∀ {s t u}, R s t → R t u → R s u
  begun      : ∀ s : State, R s s.begun
  raiseFault : ∀ (s : State) (c : Cause), R s (s.raiseFault c)
  accept     : ∀ (s : State) (p : Packet) (rest : List Packet), s.cp.busy = false → s.fault.v = false →
    R s (s.accept p rest)
  prim       : ∀ (s : State) (p : Prim), p.Permitted s → R s (s.prim p)
  scan       : ∀ s, R s (scanStep s)
  env        : ∀ levels s, R s (envStep levels s)

namespace StepClosed

variable {R : State → State → Prop} {s t : State} {i : Instr} {ps : List Prim}

/-- A list of primitives that are permitted in every state. -/
theorem runPrims (hR : StepClosed R) (h : ∀ p ∈ ps, ∀ s : State, p.Permitted s) : R s (s.runPrims ps) := by
  induction ps generalizing s with
  | nil => exact hR.refl s
  | cons p ps ih =>
    simp only [List.forall_mem_cons] at h
    exact hR.trans (hR.prim s p (h.1 s)) (ih h.2)

/-- A command as a whole. -/
theorem exec (hR : StepClosed R) (h : exec i s = .next t) : R s t := by
  rcases exec_cases h with ⟨c, -, ho⟩ | ⟨hf, ho⟩
  · exact Host.Outcome.next.inj ho ▸ hR.raiseFault s c
  · obtain rfl := Host.Outcome.next.inj ho
    have head := fun p => permitted_of_commandFault_eq_none (p := p) hf
    have tail := fun (p : Prim) (u : State) => permitted_tail (s := u) (cfg := s.cfg) (i := i) (p := p)
    generalize commandSteps s.cfg i = steps at head tail
    cases steps with
    | nil => exact hR.refl s
    | cons p ps =>
      exact hR.trans (hR.prim s p (head p List.mem_cons_self)) (hR.runPrims fun q hq u => tail q u hq)

/-- The rest of a command, from its acceptance or from the middle. -/
theorem finishCommand (hR : StepClosed R) (h : finishCommand s = .next t) : R s t := by
  unfold Machine.finishCommand at h
  split at h
  · exact Host.Outcome.next.inj h ▸ hR.raiseFault s _
  · next i _ =>
    split at h
    · exact hR.exec h
    · next hpos =>
      obtain rfl := Host.Outcome.next.inj h
      refine hR.runPrims fun p hp _ => permitted_tail (cfg := s.cfg) (i := i) ?_
      obtain ⟨k, hk⟩ := Nat.exists_eq_succ_of_ne_zero hpos
      rw [hk, ← List.drop_tail] at hp
      exact List.mem_of_mem_drop hp

/-- The whole-command turn. -/
theorem commandTurn (hR : StepClosed R) (h : commandTurn s = .next t) : R s t := by
  unfold Machine.commandTurn at h
  split at h
  · exact hR.finishCommand h
  · next hbusy =>
    split at h
    · exact Host.Outcome.next.inj h ▸ hR.refl s
    · next hv =>
      split at h
      · exact Host.Outcome.next.inj h ▸ hR.refl s
      · next p rest _ =>
        exact hR.trans (hR.accept s p rest (by simpa using hbusy) (by simpa using hv)) (hR.finishCommand h)

/-- The next primitive of a command: the first one after the checks, a later one in any state. -/
theorem primAt (hR : StepClosed R) (h : s.cp.pos = 0 → commandFault i s = none) : R s (s.primAt i) := by
  unfold State.primAt
  split
  · next p hp =>
    refine hR.prim s p ?_
    rcases Nat.eq_zero_or_pos s.cp.pos with h0 | hpos
    · exact permitted_of_commandFault_eq_none (h h0) (List.mem_of_getElem? hp)
    · obtain ⟨k, hk⟩ := Nat.exists_eq_add_of_lt hpos
      refine permitted_tail (cfg := s.cfg) (i := i) (List.mem_of_getElem? (i := k) ?_)
      simpa [List.getElem?_tail, hk] using hp
  · exact hR.refl s

/-- One step of the command processor. -/
theorem cpStep (hR : StepClosed R) : R s (cpStep s) := by
  unfold Machine.cpStep
  split
  · split
    · exact hR.raiseFault s _
    · split
      · split
        · exact hR.raiseFault s _
        · next hf => exact hR.primAt fun _ => hf
      · next hpos => exact hR.primAt fun h => absurd h hpos
  · next hbusy =>
    split
    · exact hR.refl s
    · next hv =>
      split
      · exact hR.refl s
      · exact hR.accept s _ _ (by simpa using hbusy) (by simpa using hv)

/-- A turn of any agent but a reset. -/
theorem takeTurn (hR : StepClosed R) {turn : Turn} (hn : turn.isReset = false) (h : takeTurn turn s = .next t) :
    R s t := by
  cases turn with
  | command => exact hR.commandTurn h
  | cp => exact Host.Outcome.next.inj h ▸ hR.cpStep
  | scan => exact Host.Outcome.next.inj h ▸ hR.scan s
  | env levels => exact Host.Outcome.next.inj h ▸ hR.env levels s
  | reset cfg d => cases hn

/-- Every step but a reset. -/
theorem step (hR : StepClosed R) (hn : s.NoReset) (h : step s = .next t) : R s t :=
  hR.trans (hR.begun s) (hR.takeTurn hn h)

end StepClosed

end Sys2Proof.Machine
end

section
/-! SUPPORT. The invariant of the block: every part of it is kept by every elementary change, and so by every step. -/

namespace Sys2Proof.Machine

variable {s : State} {p : Prim} {w : Wiring} {d : Device}

/-! ### The devices -/

/-- A device's registers fit its width, and it has an OUT exactly when a latch line is wired to it (R35, R36). -/
def Device.Fits (w : Wiring) (d : Device) : Prop :=
  d.sr < 2 ^ (8 * w.n) ∧ d.out.isSome = w.latch.isSome ∧ ∀ v ∈ d.out.toList, v < 2 ^ (8 * w.n)

/-- A reaction keeps the fit: a shift cuts to the width, a commit copies SR and comes from a latch line (R132 to R134). -/
theorem fits_apply {level : LineId → Level} {id : LineId} {old new : Level} {r : Reaction} (h : d.Fits w)
    (hr : reactionTo w level id old new = some r) : (d.apply w.n r).Fits w := by
  obtain ⟨hsr, hsome, hout⟩ := h
  rcases reactionTo_cases hr with ⟨rfl, -⟩ | ⟨rfl, -⟩ | ⟨rfl, hl, -⟩ | ⟨rfl, -⟩
  · exact ⟨Nat.mod_lt _ (by positivity), hsome, hout⟩
  · exact ⟨by simp [Device.apply], hsome, hout⟩
  · exact ⟨hsr, by simp [Device.apply, hl], by simpa [Device.apply] using hsr⟩
  · exact ⟨by simp [Device.apply], hsome, hout⟩

/-- A device fits after a line event if it did before. -/
theorem fits_deviceAfter {id : LineId} {old new : Level} (hw : s.cfg.wiring d.id = some w) (h : d.Fits w) :
    (s.deviceAfter id old new d).Fits w := by
  simp only [State.deviceAfter, hw]
  split
  · exact h
  · next r hr => exact fits_apply h hr

/-- Driving a line keeps the devices' fit. -/
theorem devicesFit_lineWrite (h : s.DevicesFit) (id : LineId) (l : Level) : (s.lineWrite id l).DevicesFit := by
  obtain ⟨hids, hfit⟩ := h
  refine ⟨ids_lineWrite.trans hids, fun d' hd' w hw => ?_⟩
  rw [lineWrite_devs] at hd'
  obtain ⟨d, hd, rfl⟩ := List.mem_map.mp hd'
  rw [deviceAfter_id] at hw
  exact fits_deviceAfter (s := s.putLine id l) (Option.mem_toList.mp hw) (hfit d hd w hw)

@[simp] theorem resetDevice_id (cfg : Config) (draw : Draw) (id : DevId) : (resetDevice cfg draw id).id = id := by
  unfold resetDevice
  split <;> rfl

/-- The registers drawn at reset are cut to the device's width (R35, R262; log 16). -/
theorem fits_resetDevice {cfg : Config} (draw : Draw) {id : DevId} (hw : cfg.wiring id = some w) :
    (resetDevice cfg draw id).Fits w := by
  have hpos : 0 < 2 ^ (8 * w.n) := by positivity
  unfold resetDevice
  rw [hw]
  exact ⟨Nat.mod_lt _ hpos, by simp, by simp +contextual [Nat.mod_lt _ hpos]⟩

/-- Reset leaves one device per chain and per lane, each with registers of its width (R35, R261). -/
theorem devicesFit_resetWith (cfg : Config) (draw : Draw) : (State.resetWith cfg draw).DevicesFit := by
  refine ⟨by simp [State.resetWith, Function.comp_def], fun d hd w hw => ?_⟩
  obtain ⟨id, -, rfl⟩ := List.mem_map.mp hd
  rw [resetDevice_id] at hw
  exact fits_resetDevice draw (Option.mem_toList.mp hw)

/-! ### Primitives -/

/-- Only driving a line moves a device (R131). -/
theorem devicesFit_prim (h : s.DevicesFit) (p : Prim) : (s.prim p).DevicesFit := by
  cases p with
  | lineWrite id l => exact devicesFit_lineWrite h id l
  | _ => exact h

/-- A permitted primitive writes cells of the map only, and drives lines in canonical form. -/
theorem canonical_prim (wf : s.cfg.WF) (h : s.Canonical) (hp : p.Permitted s) : (s.prim p).Canonical := by
  obtain ⟨hmem, hlines, hin⟩ := h
  cases p with
  | lineWrite id l => exact ⟨hmem, linesWf_lineWrite hlines, hin⟩
  | lineWriteAll ls => exact ⟨hmem, linesWf_lineWriteAll hlines, hin⟩
  | writeInactive r c v => exact ⟨wf_putCell hmem (Config.cellAddr_lt hp.2), hlines, hin⟩
  | writePixel r c v => exact ⟨wf_putCell hmem (Config.cellAddr_lt (hp.2 wf)), hlines, hin⟩
  | _ => exact ⟨hmem, hlines, hin⟩

/-- Opening takes the snapshot, closing clears it, and the selector moves only while no writer transaction is open (R114
to R122). -/
theorem txnConsistent_prim (h : s.TxnConsistent) (hp : p.Permitted s) : (s.prim p).TxnConsistent := by
  obtain ⟨hao, hclosed, hopen⟩ := h
  cases p with
  | openActive => exact ⟨nofun, hclosed, hopen⟩
  | closeActive => exact ⟨fun _ => rfl, hclosed, hopen⟩
  | openInactive => exact ⟨hao, nofun, fun _ => rfl⟩
  | closeInactive => exact ⟨hao, fun _ => rfl, nofun⟩
  | swap => exact ⟨hao, hclosed, fun hio => absurd (hio.symm.trans hp) nofun⟩
  | _ => exact ⟨hao, hclosed, hopen⟩

/-- A primitive leaves FAULT alone and does not start a command. -/
theorem faultConsistent_prim (h : s.FaultConsistent) (p : Prim) : (s.prim p).FaultConsistent := by
  obtain ⟨hzero, hhalt⟩ := h
  obtain ⟨-, hfault, -⟩ := prim_outside (s := s) p
  refine ⟨fun hv => by rw [hfault] at hv ⊢; exact hzero hv, fun hv => ?_⟩
  rw [hfault] at hv ⊢
  obtain ⟨hbusy, hcause⟩ := hhalt hv
  refine ⟨?_, hcause⟩
  cases hr : p.isResponse with
  | true => rw [(prim_response hr).1]; rfl
  | false => rw [(prim_cp hr).1, hbusy]

/-- A permitted primitive keeps the invariant. -/
theorem inv_prim (h : s.Inv) (hp : p.Permitted s) : (s.prim p).Inv where
  wf := (prim_cfg p).symm ▸ h.wf
  canonical := canonical_prim h.wf h.canonical hp
  devices := devicesFit_prim h.devices p
  txn := txnConsistent_prim h.txn hp
  fault := faultConsistent_prim h.fault p
  scan := by
    obtain ⟨hcfg, -, hsc, -⟩ := prim_outside (s := s) p
    simpa only [State.ScanInGrid, hcfg, hsc] using h.scan

/-! ### The other elementary changes -/

/-- The six codes of R231. -/
theorem one_le_code_le_six (c : Cause) : 1 ≤ c.code ∧ c.code ≤ 6 := by cases c <;> decide

theorem inv_begun (h : s.Inv) : s.begun.Inv := ⟨h.wf, h.canonical, h.devices, h.txn, h.fault, h.scan⟩

theorem inv_raiseFault (h : s.Inv) (c : Cause) : (s.raiseFault c).Inv :=
  ⟨h.wf, h.canonical, h.devices, h.txn, ⟨nofun, fun _ => ⟨rfl, one_le_code_le_six c⟩⟩, h.scan⟩

/-- A packet is accepted only while FAULT is clear (R80). -/
theorem inv_accept (h : s.Inv) (hv : s.fault.v = false) (packet : Packet) (rest : List Packet) :
    (s.accept packet rest).Inv :=
  ⟨h.wf, h.canonical, h.devices, h.txn, ⟨h.fault.1, fun hv' => absurd (hv'.symm.trans hv) nofun⟩, h.scan⟩

theorem inv_envStep (h : s.Inv) (levels : List (LineId × Level)) : (envStep levels s).Inv := by
  obtain ⟨hmem, hlines, hin⟩ := h.canonical
  exact ⟨h.wf, ⟨hmem, hlines, Sparse.wf_setAll hin⟩, h.devices, h.txn, h.fault, h.scan⟩

/-- S_TEST lets only an address of the grid through, and no later phase samples another (R212). -/
theorem inv_scanStep (h : s.Inv) : (scanStep s).Inv := by
  obtain ⟨wf, canonical, devices, txn, fault, scan⟩ := h
  cases hph : s.sc.phase <;> simp only [scanStep, hph]
  case sH => exact ⟨wf, canonical, devices, txn, fault, by simp⟩
  case sV => exact ⟨wf, canonical, devices, txn, fault, by simp⟩
  case sTest =>
    refine ⟨wf, canonical, devices, txn, fault, ?_⟩
    by_cases hg : s.cfg.inGrid s.sc.v.toNat s.sc.h.toNat = true <;> simp [State.ScanInGrid, hg]
  case sSel => exact ⟨wf, canonical, devices, txn, fault, fun _ => scan (.inl hph)⟩
  case sRd => exact ⟨wf, canonical, devices, txn, fault, fun _ => scan (.inr (.inl hph))⟩
  case sDrv =>
    obtain ⟨hmem, hlines, hin⟩ := canonical
    exact ⟨wf, ⟨hmem, linesWf_lineWriteAll hlines, hin⟩, devices, txn, fault, by simp⟩

/-- Every step but a reset keeps the invariant. -/
theorem inv_stepClosed : StepClosed fun s t => s.Inv → t.Inv where
  refl _ := id
  trans h h' := h' ∘ h
  begun _ := inv_begun
  raiseFault _ c h := inv_raiseFault h c
  accept _ packet rest _ hv h := inv_accept h hv packet rest
  prim _ _ hp h := inv_prim h hp
  scan _ := inv_scanStep
  env levels _ h := inv_envStep h levels

/-! ### Reset -/

/-- Reset meets the invariant, whatever is drawn (R261, R262). -/
theorem inv_resetWith {cfg : Config} (wf : cfg.WF) (draw : Draw) : (State.resetWith cfg draw).Inv where
  wf := wf
  canonical := ⟨wf_empty cfg, Sparse.wf_setAll Sparse.wf_nil, Sparse.wf_nil⟩
  devices := devicesFit_resetWith cfg draw
  txn := ⟨fun _ => rfl, fun _ => rfl, nofun⟩
  fault := ⟨fun _ => rfl, nofun⟩
  scan := by simp [State.resetWith]

/-- The reset event keeps the input levels, which are in canonical form, and resets all else (R260). -/
theorem inv_resetStep {cfg : Config} {draw : Draw} {t : State} (hin : Sparse.wf Config.low s.inputs)
    (h : resetStep cfg draw s = .next t) : t.Inv := by
  unfold resetStep at h
  split at h
  · next wf =>
    obtain rfl := Host.Outcome.next.inj h
    obtain ⟨-, ⟨hmem, hlines, -⟩, devices, txn, fault, scan⟩ := inv_resetWith wf draw
    exact ⟨wf, ⟨hmem, hlines, hin⟩, devices, txn, fault, scan⟩
  · cases h

/-- Settles O55: a step is a reset, which meets the invariant anew, or is made of changes that each keep it. -/
theorem everyStepKeepsTheInvariant : Obligations.EveryStepKeepsTheInvariant := by
  intro s t hinv h
  cases hturn : s.turn with
  | reset cfg draw =>
    obtain ⟨-, -, hin⟩ := hinv.canonical
    rw [step, hturn] at h
    exact inv_resetStep (s := s.begun) hin h
  | _ => exact inv_stepClosed.step (by rw [State.NoReset, hturn]; rfl) h hinv

end Sys2Proof.Machine
end

section
/-! SUPPORT. A command's run: single steps of the processor and the whole command agree, and both end in a response. -/

namespace Sys2Proof.Machine

variable {s : State} {i : Instr} {p : Prim} {ps : List Prim} {m : Nat}

/-- A step list without a response keeps the command in execution, that many positions on (R22). -/
theorem runPrims_cp (h : ∀ p ∈ ps, p.isResponse = false) :
    (s.runPrims ps).cp.busy = s.cp.busy ∧ (s.runPrims ps).cp.cmd = s.cp.cmd ∧
    (s.runPrims ps).cp.pos = s.cp.pos + ps.length := by
  induction ps generalizing s with
  | nil => exact ⟨rfl, rfl, rfl⟩
  | cons p ps ih =>
    simp only [List.forall_mem_cons] at h
    obtain ⟨hb, hc, hp⟩ := prim_cp (s := s) h.1
    obtain ⟨hb', hc', hp'⟩ := ih (s := s.prim p) h.2
    refine ⟨hb'.trans hb, hc'.trans hc, ?_⟩
    rw [runPrims_cons, hp', hp, List.length_cons]
    omega

/-- No step list touches the configuration, FAULT, the scan engine, the inputs or what the outside holds. -/
theorem runPrims_outside (s : State) (ps : List Prim) :
    (s.runPrims ps).cfg = s.cfg ∧ (s.runPrims ps).fault = s.fault ∧ (s.runPrims ps).sc = s.sc ∧
    (s.runPrims ps).inputs = s.inputs ∧ (s.runPrims ps).host = s.host ∧ (s.runPrims ps).agenda = s.agenda ∧
    (s.runPrims ps).moment = s.moment := by
  induction ps generalizing s with
  | nil => simp
  | cons p ps ih =>
    obtain ⟨hcfg, hfault, hsc, hin, hhost, hag, hmom⟩ := prim_outside (s := s) p
    simpa only [runPrims_cons, hcfg, hfault, hsc, hin, hhost, hag, hmom] using ih (s.prim p)

/-- A command's step list taken to its end leaves the processor idle, a response the latest event (R80). -/
theorem runPrims_commandSteps_responds (s : State) (cfg : Config) (i : Instr) :
    (s.runPrims (commandSteps cfg i)).cp = Cp.idle ∧
    ∃ bs, (s.runPrims (commandSteps cfg i)).trace.head? = some [.resp bs] := by
  obtain ⟨body, r, hsteps, -, hr⟩ := (commandSteps_shape cfg i).eq_body_append
  obtain ⟨hcp, bs, htr⟩ := prim_response (s := s.runPrims body) hr
  rw [hsteps, runPrims_append]
  exact ⟨hcp, bs, by rw [runPrims_cons, runPrims_nil, htr, List.head?_cons]⟩

/-- Settles O9: the step list ends in its one response, and no primitive touches what is outside the command. -/
theorem everyCheckedCommandResponds : Obligations.EveryCheckedCommandResponds := by
  intro i s hf
  obtain ⟨hcp, bs, htr⟩ := runPrims_commandSteps_responds s s.cfg i
  exact ⟨_, bs, exec_of_ok hf, htr, hcp, runPrims_outside s _⟩

/-- A step of the processor at a command whose check fails takes the fault (R242). -/
theorem cpStep_of_fault {c : Cause} (hb : s.cp.busy = true) (hd : decode s.cfg s.cp.cmd = .ok i) (h0 : s.cp.pos = 0)
    (hf : commandFault i s = some c) : cpStep s = s.raiseFault c := by simp [cpStep, hb, hd, h0, hf]

/-- A step of the processor in a command whose checks have passed takes the next primitive (R22). -/
theorem cpStep_of_prim (hb : s.cp.busy = true) (hd : decode s.cfg s.cp.cmd = .ok i)
    (hf : s.cp.pos = 0 → commandFault i s = none) (hp : (commandSteps s.cfg i)[s.cp.pos]? = some p) :
    cpStep s = s.prim p := by
  have hprim : s.primAt i = s.prim p := by simp [State.primAt, hp]
  by_cases h0 : s.cp.pos = 0
  · simp [cpStep, hb, hd, hf h0, hprim]
  · simp [cpStep, hb, hd, h0, hprim]

/-- m single steps from the acceptance of a command whose checks pass take the first m primitives of its step list: no
response comes before its end, so the command is still in execution at each of them (R22). -/
theorem cpStep_iterate {body : List Prim} {r : Prim} (hb : s.cp.busy = true) (h0 : s.cp.pos = 0)
    (hd : decode s.cfg s.cp.cmd = .ok i) (hf : commandFault i s = none) (hsteps : commandSteps s.cfg i = body ++ [r])
    (hbody : ∀ p ∈ body, p.isResponse = false) (hm : m ≤ (body ++ [r]).length) :
    cpStep^[m] s = s.runPrims ((body ++ [r]).take m) := by
  induction m with
  | zero => rfl
  | succ m ih =>
    have hlt : m < (body ++ [r]).length := hm
    have hle : m ≤ body.length := by simpa [Nat.lt_succ_iff] using hlt
    have htake : (body ++ [r]).take m = body.take m := List.take_append_of_le_length hle
    obtain ⟨hbusy, hcmd, hpos⟩ := runPrims_cp (s := s) fun p hp => hbody p (List.mem_of_mem_take (i := m) hp)
    have hpos : (s.runPrims (body.take m)).cp.pos = m := by rw [hpos, h0, List.length_take_of_le hle, Nat.zero_add]
    rw [Function.iterate_succ_apply', ih hlt.le, List.take_succ_eq_append_getElem hlt, htake, runPrims_append]
    refine cpStep_of_prim (i := i) (hbusy.trans hb) (by rw [runPrims_cfg, hcmd, hd]) (fun h => ?_) ?_
    · obtain rfl : m = 0 := hpos ▸ h
      exact hf
    · rw [runPrims_cfg, hsteps, hpos, List.getElem?_eq_getElem hlt]

/-- Settles O8: a failing check takes its fault in one step; otherwise the single steps are the primitives of the step
list, in execution until the response at its end. -/
theorem singleStepsReachWhatExecAnswers : Obligations.SingleStepsReachWhatExecAnswers := by
  intro s t i hb h0 hd he
  obtain ⟨body, r, hsteps, hbody, hr⟩ := (commandSteps_shape s.cfg i).eq_body_append
  rcases exec_cases he with ⟨c, hf, ho⟩ | ⟨hf, ho⟩ <;> obtain rfl := Host.Outcome.next.inj ho
  · refine ⟨1, le_rfl, by simp [hsteps], cpStep_of_fault hb hd h0 hf, fun m hm => ?_, rfl⟩
    obtain rfl : m = 0 := Nat.lt_one_iff.mp hm
    exact hb
  · have hiter := fun m => cpStep_iterate (m := m) hb h0 hd hf hsteps hbody
    refine ⟨(body ++ [r]).length, by simp, hsteps ▸ le_rfl, ?_, fun m hm => ?_, ?_⟩
    · rw [hiter _ le_rfl, List.take_length, hsteps]
    · have hle : m ≤ body.length := by simpa [Nat.lt_succ_iff] using hm
      rw [hiter m hm.le, List.take_append_of_le_length hle]
      exact (runPrims_cp fun p hp => hbody p (List.mem_of_mem_take hp)).1.trans hb
    · rw [(runPrims_commandSteps_responds s s.cfg i).1]
      rfl

end Sys2Proof.Machine
end

section
/-! SUPPORT. What no step but a reset clears or moves unseen: the bits of DIAG, and the selector. -/

namespace Sys2Proof.Machine

/-- Every bit of DIAG that is 1 in the first state is 1 in the second (R26). -/
def DiagKept (s t : State) : Prop :=
  (s.diag.noLatch = true → t.diag.noLatch = true) ∧ (s.diag.noClear = true → t.diag.noClear = true) ∧
  (s.diag.oor = true → t.diag.oor = true)

variable {s t u : State} {p : Prim}

theorem diagKept_of_eq (h : t.diag = s.diag) : DiagKept s t := by simp [DiagKept, h]

/-- A diagnostic sets its bit and keeps the others; no other primitive touches DIAG (R26). -/
theorem diagKept_prim : DiagKept s (s.prim p) := by
  cases p with
  | diag k => cases k <;> simp +contextual [DiagKept, State.prim, setDiag]
  | _ => exact diagKept_of_eq rfl

/-- The scan engine sets no diagnostic (R210). -/
theorem scanStep_diag : (scanStep s).diag = s.diag := by
  unfold scanStep
  split <;> rfl

theorem diagKept_stepClosed : StepClosed DiagKept where
  refl _ := diagKept_of_eq rfl
  trans := fun ⟨a, b, c⟩ ⟨a', b', c'⟩ => ⟨a' ∘ a, b' ∘ b, c' ∘ c⟩
  begun _ := diagKept_of_eq rfl
  raiseFault _ _ := diagKept_of_eq rfl
  accept _ _ _ _ _ := diagKept_of_eq rfl
  prim _ _ _ := diagKept_prim
  scan _ := diagKept_of_eq scanStep_diag
  env _ _ := diagKept_of_eq rfl

/-- Settles O16: setting a diagnostic is the only change of DIAG that a step but a reset is made of. -/
theorem diagnosticsAreSticky : Obligations.DiagnosticsAreSticky :=
  fun _ _ hn h => diagKept_stepClosed.step hn h

/-- The trace grows by groups of events, and if the selector is another one after them, they hold a store of its new
value (R16, R25). -/
def SelStored (s t : State) : Prop :=
  ∃ groups, t.trace = groups ++ s.trace ∧ (t.sel = s.sel ∨ .selStore t.sel ∈ groups.flatten)

theorem SelStored.trans (h : SelStored s t) (h' : SelStored t u) : SelStored s u := by
  obtain ⟨gs, htr, hsel⟩ := h
  obtain ⟨gs', htr', hsel'⟩ := h'
  refine ⟨gs' ++ gs, by rw [htr', htr, List.append_assoc], ?_⟩
  rw [List.flatten_append, List.mem_append]
  rcases hsel' with hsel' | hsel'
  · exact hsel.imp hsel'.trans fun h => .inr (hsel' ▸ h)
  · exact .inr (.inl hsel')

theorem selStored_of_sel_eq {groups : List (List Event)} (htr : t.trace = groups ++ s.trace) (hsel : t.sel = s.sel) :
    SelStored s t := ⟨groups, htr, .inl hsel⟩

/-- A primitive other than a swap keeps the selector. -/
theorem prim_sel (h : p ≠ .swap) : (s.prim p).sel = s.sel := by
  cases p with
  | swap => exact absurd rfl h
  | _ => rfl

/-- A step list without a swap keeps the selector. -/
theorem runPrims_sel {ps : List Prim} (h : .swap ∉ ps) : (s.runPrims ps).sel = s.sel := by
  induction ps generalizing s with
  | nil => rfl
  | cons p ps ih =>
    simp only [List.mem_cons, not_or] at h
    rw [runPrims_cons, ih h.2, prim_sel (Ne.symm h.1)]

/-- Every primitive is one group of events (R16). -/
theorem exists_prim_trace (s : State) (p : Prim) : ∃ g, (s.prim p).trace = [g] ++ s.trace := by
  cases p <;> exact ⟨_, rfl⟩

/-- A swap traces the store of the new selector (R119); no other primitive moves it. -/
theorem selStored_prim : SelStored s (s.prim p) := by
  obtain ⟨g, hg⟩ := exists_prim_trace s p
  by_cases hp : p = .swap
  · subst hp
    exact ⟨[[.selStore (!s.sel)]], rfl, .inr List.mem_cons_self⟩
  · exact selStored_of_sel_eq hg (prim_sel hp)

/-- Every phase of the scan engine is one group of events, and none moves the selector (R212). -/
theorem selStored_scanStep : SelStored s (scanStep s) := by
  unfold scanStep
  split <;> exact selStored_of_sel_eq (groups := [_]) rfl rfl

theorem selStored_stepClosed : StepClosed SelStored where
  refl _ := selStored_of_sel_eq (groups := []) rfl rfl
  trans := SelStored.trans
  begun _ := selStored_of_sel_eq (groups := []) rfl rfl
  raiseFault _ _ := selStored_of_sel_eq (groups := [_]) rfl rfl
  accept _ _ _ _ _ := selStored_of_sel_eq (groups := [_]) rfl rfl
  prim _ _ _ := selStored_prim
  scan _ := selStored_scanStep
  env _ _ := selStored_of_sel_eq (groups := [_]) rfl rfl

/-- The events of a step are those of the groups its trace grew by. -/
theorem newEvents_of_append {groups : List (List Event)} (h : t.trace = groups ++ s.trace) :
    newEvents s t = groups.flatten := by simp [newEvents, h]

/-- A command that changes the selector has a swap in its step list. -/
theorem swap_mem_of_exec_sel_ne {i : Instr} (h : exec i s = .next t) (hne : t.sel ≠ s.sel) :
    .swap ∈ commandSteps s.cfg i := by
  rcases exec_cases h with ⟨c, -, ho⟩ | ⟨-, ho⟩ <;> obtain rfl := Host.Outcome.next.inj ho
  · exact absurd rfl hne
  · by_contra hs
    exact hne (runPrims_sel hs)

/-- Settles O22: the swap is the only primitive that moves the selector, DB.SWAP and PXB.PRESENT are the only commands
that have one, and it traces its store. -/
theorem onlySwapMovesTheSelector : Obligations.OnlySwapMovesTheSelector := by
  refine ⟨fun i s t h hne => swap_mem_commandSteps (swap_mem_of_exec_sel_ne h hne), fun s t hn h hne => ?_⟩
  obtain ⟨groups, htr, hsel⟩ := selStored_stepClosed.step hn h
  rw [newEvents_of_append htr]
  exact hsel.resolve_left hne

end Sys2Proof.Machine
end

section
/-! SUPPORT. Many writes of a sparse map at once, and the environment's step. -/

namespace Sys2Proof.Sparse

/-- Where the names are distinct, a key reads after the writes what the list gives it, or as before. -/
theorem get_setAll_eq_lookup {α : Type} [DecidableEq α] {d : Nat → α} {m ps : List (Nat × α)} (h : wf d m)
    (hn : (ps.map Prod.fst).Nodup) (k : Nat) :
    get d (setAll d m ps) k = (ps.lookup k).getD (get d m k) := by
  induction ps generalizing m with
  | nil => rfl
  | cons p ps ih =>
    obtain ⟨k', v⟩ := p
    simp only [List.map_cons, List.nodup_cons] at hn
    rw [setAll_cons]
    by_cases hk : k = k'
    · subst hk
      rw [get_setAll_of_not_mem (wf_set h) hn.1, get_set_self h]
      simp
    · rw [ih (wf_set h) hn.2, get_set_of_ne h hk]
      simp [List.lookup_cons, beq_false_of_ne hk]

/-- Looking a name up among the entries whose names pass a test. -/
theorem lookup_filter_fst {α : Type} (q : Nat → Bool) (ps : List (Nat × α)) (k : Nat) :
    (ps.filter fun p => q p.1).lookup k = if q k then ps.lookup k else none := by
  induction ps with
  | nil => simp
  | cons p ps ih =>
    obtain ⟨k', v⟩ := p
    by_cases hk : k = k'
    · subst hk
      by_cases hq : q k <;> simp [hq, ih]
    · by_cases hq : q k' <;> simp [hq, ih, List.lookup_cons, beq_false_of_ne hk]

end Sys2Proof.Sparse

namespace Sys2Proof.Machine

/-- Settles O58: the names that are input lines are written to the input levels, each once. -/
theorem environmentMovesOnlyInputLines : Obligations.EnvironmentMovesOnlyInputLines := by
  rintro s levels ⟨-, -, hin⟩ hn
  refine ⟨rfl, fun id => ?_⟩
  have hn' : ((levels.filter fun p => s.cfg.inputLines.contains p.1).map Prod.fst).Nodup :=
    hn.sublist (List.filter_sublist.map _)
  calc (envStep levels s).input id
      = ((levels.filter fun p => s.cfg.inputLines.contains p.1).lookup id).getD (s.input id) :=
        Sparse.get_setAll_eq_lookup hin hn' id
    _ = _ := by
      rw [Sparse.lookup_filter_fst s.cfg.inputLines.contains]
      by_cases hid : id ∈ s.cfg.inputLines <;> simp [hid]

end Sys2Proof.Machine
end

section
/-! SUPPORT. What the events of a trace say of the memory: the latest write to a cell, the latest selector store and the
number of stores, and the events that change none of them. -/

namespace Sys2Proof.Machine

variable {s : State} {cfg : Config} {a : Nat} {v : Byte} {es older : List Event}

/-! ### The latest write to a cell -/

/-- The value an event writes to the cell, if it is a write of it. -/
def Event.written (a : Nat) : Event → Option Byte
  | .cellWrite a' v => if a' = a then some v else none
  | _ => none

theorem written_eq_some {e : Event} : e.written a = some v ↔ e = .cellWrite a v := by
  cases e <;> simp [Event.written]

theorem lastWrite_eq_findSome? : lastWrite a es = es.findSome? (Event.written a) := by
  induction es with
  | nil => rfl
  | cons e es ih =>
    cases e with
    | cellWrite a' v => by_cases h : a' = a <;> simp [lastWrite, Event.written, h, ih]
    | _ => exact ih

theorem lastWrite_append : lastWrite a (es ++ older) = (lastWrite a es).or (lastWrite a older) := by
  simp only [lastWrite_eq_findSome?, List.findSome?_append]

/-- A cell has no latest write exactly when no event writes it. -/
theorem lastWrite_eq_none : lastWrite a es = none ↔ ∀ v, .cellWrite a v ∉ es := by
  rw [lastWrite_eq_findSome?, List.findSome?_eq_none_iff]
  exact ⟨fun h v hv => by simpa [Event.written] using h _ hv, fun h e he =>
    Option.eq_none_iff_forall_ne_some.mpr fun v hv => h v (written_eq_some.mp hv ▸ he)⟩

/-- The latest write is one of the events. -/
theorem mem_of_lastWrite_eq_some (h : lastWrite a es = some v) : .cellWrite a v ∈ es := by
  rw [lastWrite_eq_findSome?] at h
  obtain ⟨e, he, hv⟩ := List.exists_of_findSome?_eq_some h
  exact written_eq_some.mp hv ▸ he

/-- Events without a write of the cell are passed over. -/
theorem lastWrite_append_of_not_mem (h : ∀ v, .cellWrite a v ∉ es) :
    lastWrite a (es ++ older) = lastWrite a older := by
  rw [lastWrite_append, lastWrite_eq_none.mpr h, Option.none_or]

/-- A write of another cell is passed over. -/
theorem lastWrite_cons_of_ne {a' : Nat} (h : a' ≠ a) : lastWrite a (.cellWrite a' v :: es) = lastWrite a es := by
  simp [lastWrite, h]

/-- Among groups of events, newest first, the latest write of a cell stands in one of the groups, and no newer group
writes the cell. -/
theorem exists_group_of_lastWrite_flatten {groups : List (List Event)} (h : lastWrite a groups.flatten = some v) :
    ∃ (i : Nat) (x : List Event), groups[i]? = some x ∧ .cellWrite a v ∈ x ∧
      ∀ (k : Nat) (z : List Event) (w : Byte), k < i → groups[k]? = some z → .cellWrite a w ∉ z := by
  induction groups with
  | nil => cases h
  | cons g gs ih =>
    rw [List.flatten_cons, lastWrite_append] at h
    cases hg : lastWrite a g with
    | some w =>
      obtain rfl : w = v := by simpa [hg] using h
      exact ⟨0, g, rfl, mem_of_lastWrite_eq_some hg, by omega⟩
    | none =>
      obtain ⟨i, x, hi, hx, hnewer⟩ := ih (by simpa [hg] using h)
      refine ⟨i + 1, x, hi, hx, fun k z w hk hz => ?_⟩
      cases k with
      | zero => exact Option.some.inj hz ▸ lastWrite_eq_none.mp hg w
      | succ k => exact hnewer k z w (by omega) hz

/-! ### The latest selector store, and the number of stores -/

/-- Events without a selector store are passed over. -/
theorem lastStore_append_of_not_mem (h : ∀ v, .selStore v ∉ es) : lastStore (es ++ older) = lastStore older := by
  induction es with
  | nil => rfl
  | cons e es ih =>
    simp only [List.mem_cons, not_or] at h
    cases e with
    | selStore v => exact absurd rfl (h v).1
    | _ => exact ih fun v => (h v).2

/-- Events without a selector store do not count. -/
theorem storeCount_append_of_not_mem (h : ∀ v, .selStore v ∉ es) : storeCount (es ++ older) = storeCount older := by
  induction es with
  | nil => rfl
  | cons e es ih =>
    simp only [List.mem_cons, not_or] at h
    cases e with
    | selStore v => exact absurd rfl (h v).1
    | _ => exact ih fun v => (h v).2

/-! ### Agreement of the events -/

/-- The older events of a trace agree by themselves. -/
theorem eventsAgree_of_append (h : EventsAgree cfg (es ++ older)) : EventsAgree cfg older := by
  induction es with
  | nil => exact h
  | cons e es ih => exact ih h.2

/-- An event of a trace whose events agree, agrees with those before it. -/
theorem agrees_of_append {e : Event} (h : EventsAgree cfg (es ++ e :: older)) : e.Agrees cfg older :=
  (eventsAgree_of_append h).1

end Sys2Proof.Machine
end

section
/-! SUPPORT. What an elementary change does to the memory, said once: it writes one cell, stores the selector, or changes
neither and traces reads that return what the state holds. Hence the coherence of the trace and the parity of the
selector. -/

namespace Sys2Proof.Machine

variable {s t : State} {a : Nat} {v : Byte} {es older : List Event}

/-- An event that changes neither a cell nor the selector and, if it is a read, returns what the state holds (R68). -/
def Event.ReadsFrom (s : State) : Event → Prop
  | .cellRead _ a v => v = s.readCell a
  | .selLoad _ v => v = s.sel
  | .cellWrite _ _ => False
  | .selStore _ => False
  | _ => True

/-- All that an elementary change can do to the cells, the selector and their part of the trace (R12, R25, R68). -/
inductive MemStep (s t : State) : Prop where
  /-- Cells and selector stay, and the events only read them. -/
  | read (es : List Event) (cfg : t.cfg = s.cfg) (fb : t.fb = s.fb) (sel : t.sel = s.sel)
      (events : t.events = es ++ s.events) (reads : ∀ e ∈ es, e.ReadsFrom s)
  /-- One cell is written. -/
  | write (a : Nat) (v : Byte) (cfg : t.cfg = s.cfg) (fb : t.fb = (s.putCell a v).fb) (sel : t.sel = s.sel)
      (events : t.events = .cellWrite a v :: s.events)
  /-- The complement of the selector is stored. -/
  | store (cfg : t.cfg = s.cfg) (fb : t.fb = s.fb) (sel : t.sel = !s.sel)
      (events : t.events = .selStore (!s.sel) :: s.events)

/-! ### The elementary changes -/

/-- A change that leaves the memory and the trace alone. -/
theorem memStep_of_trace_eq (cfg : t.cfg = s.cfg) (fb : t.fb = s.fb) (sel : t.sel = s.sel) (trace : t.trace = s.trace) :
    MemStep s t := .read [] cfg fb sel (by simp [State.events, trace]) nofun

/-- A change that leaves the memory alone and traces one group of events. -/
theorem memStep_of_trace_cons {g : List Event} (cfg : t.cfg = s.cfg) (fb : t.fb = s.fb) (sel : t.sel = s.sel)
    (trace : t.trace = g :: s.trace) (reads : ∀ e ∈ g, e.ReadsFrom s) : MemStep s t :=
  .read g cfg fb sel (by simp [State.events, trace]) reads

/-- Driving lines traces line events only. -/
theorem readsFrom_of_mem_driveEvents {u : State} {ls : List (LineId × Level)} {e : Event} (h : e ∈ s.driveEvents ls) :
    e.ReadsFrom u := by
  induction ls generalizing s with
  | nil => cases h
  | cons l ls ih =>
    rcases List.mem_cons.mp h with rfl | h
    · trivial
    · exact ih h

/-- A device's reaction traces device events only. -/
theorem readsFrom_of_mem_deviceEvents {u : State} {id : LineId} {old new : Level} {d : Device} {e : Event}
    (h : e ∈ s.deviceEvents id old new d) : e.ReadsFrom u := by
  unfold State.deviceEvents at h
  split at h
  · cases h
  · next r _ => cases r <;> simp_all [Reaction.event, Event.ReadsFrom]

/-- Driving one line traces its event and those of the devices. -/
theorem readsFrom_of_mem_lineWrite {u : State} {id : LineId} {old new : Level} {ds : List Device} {e : Event}
    (h : e ∈ .lineEv id old new :: ds.flatMap (s.deviceEvents id old new)) : e.ReadsFrom u := by
  rcases List.mem_cons.mp h with rfl | h
  · trivial
  · obtain ⟨d, -, hd⟩ := List.mem_flatMap.mp h
    exact readsFrom_of_mem_deviceEvents hd

theorem memStep_prim (s : State) (p : Prim) : MemStep s (s.prim p) := by
  cases p with
  | lineWrite id l => exact memStep_of_trace_cons rfl rfl rfl rfl fun _ => readsFrom_of_mem_lineWrite
  | lineWriteAll ls => exact memStep_of_trace_cons rfl rfl rfl rfl fun _ => readsFrom_of_mem_driveEvents
  | writeInactive r c v => exact .write _ v rfl rfl rfl rfl
  | writePixel r c v => exact .write _ v rfl rfl rfl rfl
  | swap => exact .store rfl rfl rfl rfl
  | _ => exact memStep_of_trace_cons rfl rfl rfl rfl (by simp [Event.ReadsFrom])

theorem memStep_scanStep (s : State) : MemStep s (scanStep s) := by
  unfold scanStep
  split
  case h_6 => exact memStep_of_trace_cons rfl rfl rfl rfl fun _ => readsFrom_of_mem_driveEvents
  all_goals exact memStep_of_trace_cons rfl rfl rfl rfl (by simp [Event.ReadsFrom])

/-- What every change of the memory keeps, every step but a reset keeps. -/
theorem stepClosed_of_memStep {P : State → Prop} (hP : ∀ s t, MemStep s t → P s → P t) :
    StepClosed fun s t => P s → P t where
  refl _ := id
  trans h h' := h' ∘ h
  begun s := hP s _ (memStep_of_trace_eq rfl rfl rfl rfl)
  raiseFault s _ := hP s _ (memStep_of_trace_cons rfl rfl rfl rfl (by simp [Event.ReadsFrom]))
  accept s _ _ _ _ := hP s _ (memStep_of_trace_cons rfl rfl rfl rfl (by simp [Event.ReadsFrom]))
  prim s p _ := hP s _ (memStep_prim s p)
  scan s := hP s _ (memStep_scanStep s)
  env _ s := hP s _ (memStep_of_trace_cons rfl rfl rfl rfl nofun)

/-! ### Coherence -/

theorem lastWrite_append_of_reads (reads : ∀ e ∈ es, e.ReadsFrom s) (a : Nat) :
    lastWrite a (es ++ older) = lastWrite a older :=
  lastWrite_append_of_not_mem fun _ h => reads _ h

theorem lastStore_append_of_reads (reads : ∀ e ∈ es, e.ReadsFrom s) : lastStore (es ++ older) = lastStore older :=
  lastStore_append_of_not_mem fun _ h => reads _ h

/-- Reads that return what a coherent state holds agree with its trace. -/
theorem eventsAgree_append_of_reads (hs : s.Coherent) (reads : ∀ e ∈ es, e.ReadsFrom s) :
    EventsAgree s.cfg (es ++ s.events) := by
  obtain ⟨cells, sel, agree⟩ := hs
  induction es with
  | nil => exact agree
  | cons e es ih =>
    rw [List.forall_mem_cons] at reads
    obtain ⟨head, tail⟩ := reads
    refine ⟨?_, ih tail⟩
    cases e with
    | cellRead g a v =>
      calc v = s.readCell a := head
        _ = (lastWrite a s.events).getD (s.cfg.initCell a) := cells a
        _ = (lastWrite a (es ++ s.events)).getD (s.cfg.initCell a) := by rw [lastWrite_append_of_reads tail]
    | selLoad g v =>
      calc v = s.sel := head
        _ = lastStore s.events := sel
        _ = lastStore (es ++ s.events) := (lastStore_append_of_reads tail).symm
    | _ => trivial

/-- Every change of the memory keeps the cells' canonical form and the coherence of the trace. -/
theorem coherent_memStep (h : MemStep s t) (hs : Sparse.wf s.cfg.initCell s.fb ∧ s.Coherent) :
    Sparse.wf t.cfg.initCell t.fb ∧ t.Coherent := by
  obtain ⟨hwf, hcoh⟩ := hs
  have ⟨cells, hsel, agree⟩ := hcoh
  cases h with
  | read es cfg fb sel events reads =>
    rw [State.Coherent, events, cfg, fb, sel, lastStore_append_of_reads reads]
    refine ⟨hwf, fun a => ?_, hsel, eventsAgree_append_of_reads hcoh reads⟩
    rw [readCell_congr cfg fb, lastWrite_append_of_reads reads, cells]
  | write a v cfg fb sel events =>
    rw [State.Coherent, events, cfg, fb, sel]
    refine ⟨Sparse.wf_set hwf, fun a' => ?_, hsel, trivial, agree⟩
    rw [readCell_congr (s := s.putCell a v) cfg fb]
    by_cases ha : a = a'
    · subst ha
      exact (Sparse.get_set_self hwf).trans (by simp [lastWrite])
    · rw [lastWrite_cons_of_ne ha, ← cells]
      exact Sparse.get_set_of_ne hwf (Ne.symm ha)
  | store cfg fb sel events =>
    rw [State.Coherent, events, cfg, fb, sel]
    refine ⟨hwf, fun a => ?_, rfl, trivial, agree⟩
    rw [readCell_congr cfg fb, cells]
    rfl

/-- The state reset leaves is coherent: no event, every cell INIT, the selector 0 (R63, R111). -/
theorem coherent_resetWith (cfg : Config) (d : Draw) : (State.resetWith cfg d).Coherent := ⟨fun _ => rfl, rfl, trivial⟩

/-- A step is no reset, or leads to a reset state with what the outside holds as it was (R260). -/
theorem noReset_or_eq_reset (h : step s = .next t) :
    s.NoReset ∨ ∃ cfg d, t = { State.resetWith cfg d with
      inputs := s.inputs, host := s.host, agenda := s.agenda.tail, moment := s.moment + 1 } := by
  cases hturn : s.turn with
  | reset cfg d =>
    rw [step, hturn, takeTurn, resetStep] at h
    split at h
    · exact .inr ⟨cfg, d, (Host.Outcome.next.inj h).symm⟩
    · cases h
  | _ => exact .inl (by rw [State.NoReset, hturn]; rfl)

/-- Settles O49: every elementary change keeps the trace coherent, and a reset makes it so anew. -/
theorem stepsKeepTheTraceCoherent : Obligations.StepsKeepTheTraceCoherent := by
  refine ⟨fun s t hinv hs h => ?_, coherent_resetWith⟩
  obtain ⟨⟨cellsWf, -⟩, -, -⟩ := hinv.canonical
  rcases noReset_or_eq_reset h with hn | ⟨cfg, d, rfl⟩
  · have closed := stepClosed_of_memStep fun _ _ => coherent_memStep
    exact (closed.step hn h ⟨cellsWf, hs⟩).2
  · exact coherent_resetWith cfg d

/-! ### The parity of the selector -/

/-- A store complements the selector and is the only event that counts (R63). -/
theorem parity_memStep (h : MemStep s t) (hs : s.sel = (storeCount s.events % 2 == 1)) :
    t.sel = (storeCount t.events % 2 == 1) := by
  cases h with
  | read es cfg fb sel events reads =>
    rw [sel, events, storeCount_append_of_not_mem fun _ h => reads _ h, hs]
  | write a v cfg fb sel events => rw [sel, events, hs]; rfl
  | store cfg fb sel events =>
    rw [sel, events, hs, storeCount]
    rcases Nat.mod_two_eq_zero_or_one (storeCount s.events) with hp | hp <;> simp [hp, Nat.add_mod]

/-- Settles O50: every elementary change keeps the parity, and a reset leaves no store and the selector 0. -/
theorem selectorCountsTheStores : Obligations.SelectorCountsTheStores := by
  refine ⟨fun s t hs h => ?_, fun _ _ => rfl⟩
  rcases noReset_or_eq_reset h with hn | ⟨cfg, d, rfl⟩
  · exact (stepClosed_of_memStep fun _ _ => parity_memStep).step hn h hs
  · rfl

end Sys2Proof.Machine
end

section
/-! SUPPORT. The litmus statements of the memory order: what a published selector tells its reader, and what a cell read
may return (spec/20_memory.md R65 to R67). -/

namespace Sys2Proof.Machine

variable {s : State} {g : Agent} {a : Nat} {v : Byte}

/-- Settles O51: between the store and the read the trace holds no other store and no write of the cell, so the latest
store and the latest write before the load and the read are those at the store. -/
theorem publishedCellsAreReadWhole : Obligations.PublishedCellsAreReadWhole := by
  rintro s newer mid between before g a v b b' ⟨-, -, agree⟩ hev hstore hmid hbetween
  simp only [hev, List.append_assoc, List.cons_append] at agree
  obtain ⟨read, older⟩ := eventsAgree_of_append agree
  obtain ⟨load, -⟩ := eventsAgree_of_append older
  have stored : b = b' := by
    calc b = lastStore (between ++ .selStore b' :: before) := load
      _ = b' := lastStore_append_of_not_mem hstore
  have written : lastWrite a (mid ++ .selLoad g b :: (between ++ .selStore b' :: before)) = lastWrite a before := by
    rw [lastWrite_append_of_not_mem hmid]
    exact lastWrite_append_of_not_mem (es := between) hbetween
  exact ⟨stored, written ▸ read⟩

/-- A release and the load that acquires it order what the producer did before and what the reader does after (R65). -/
theorem happensBefore_of_syncsWith {cfg : Config} {tr : List (List Event)} {i j p q : Nat} {x y z : List Event} {b : Bool}
    (sync : SyncsWith tr i j) (hz : tr[j]? = some z) (load : .selLoad g b ∈ z) (hip : i < p) (hx : tr[p]? = some x)
    (producer : ActsIn cfg x .host) (hqj : q < j) (hy : tr[q]? = some y) (reader : ActsIn cfg y g) :
    HappensBefore cfg tr p q := by
  have ⟨_, ⟨u, b', hu, store⟩, _, _⟩ := sync
  have before : HappensBefore cfg tr p i := .po hx hu hip producer (actsIn_of_selStore store)
  have after : HappensBefore cfg tr j q := .po hz hy hqj (actsIn_of_selLoad load) reader
  exact before.trans ((HappensBefore.sync sync).trans after)

/-- A cell read in a group of a coherent trace returns the latest write among the events before it: those behind it in its
own group, then the older groups. -/
theorem exists_behind_of_cellRead {y : List Event} {j : Nat} (hs : s.Coherent) (hy : s.trace[j]? = some y)
    (read : .cellRead g a v ∈ y) :
    ∃ behind : List Event, behind ⊆ y ∧
      v = (lastWrite a (behind :: s.trace.drop (j + 1)).flatten).getD (s.cfg.initCell a) := by
  obtain ⟨-, -, agree⟩ := hs
  obtain ⟨ahead, behind, rfl⟩ := List.append_of_mem read
  refine ⟨behind, by simp, ?_⟩
  obtain ⟨hj, hget⟩ := List.getElem?_eq_some_iff.mp hy
  have split : s.trace = s.trace.take j ++ (ahead ++ .cellRead g a v :: behind) :: s.trace.drop (j + 1) := by
    rw [← hget, List.getElem_cons_drop, List.take_append_drop]
  have events : s.events = ((s.trace.take j).flatten ++ ahead) ++
      .cellRead g a v :: (behind :: s.trace.drop (j + 1)).flatten := by
    rw [State.events]
    conv_lhs => rw [split]
    simp
  rw [events] at agree
  exact agrees_of_append agree

/-- What a cell read in a group of a coherent trace returns: a write in its own or an older group, with no write of the
cell in the groups between; or the reset value, and then no older group writes the cell (R66). -/
theorem cellRead_cases {y : List Event} {j : Nat} (hs : s.Coherent) (hy : s.trace[j]? = some y)
    (read : .cellRead g a v ∈ y) :
    (∃ (i : Nat) (x : List Event), j ≤ i ∧ s.trace[i]? = some x ∧ .cellWrite a v ∈ x ∧
      ∀ (k : Nat) (z : List Event) (w : Byte), j < k → k < i → s.trace[k]? = some z → .cellWrite a w ∉ z) ∨
    (v = s.cfg.initCell a ∧
      ∀ (k : Nat) (z : List Event) (w : Byte), j < k → s.trace[k]? = some z → .cellWrite a w ∉ z) := by
  obtain ⟨behind, hsub, hv⟩ := exists_behind_of_cellRead hs hy read
  have older : ∀ n, (behind :: s.trace.drop (j + 1))[n + 1]? = s.trace[j + n + 1]? := fun n => by
    rw [List.getElem?_cons_succ, List.getElem?_drop, Nat.add_right_comm]
  cases hw : lastWrite a (behind :: s.trace.drop (j + 1)).flatten with
  | some w =>
    rw [hw, Option.getD_some] at hv
    subst hv
    obtain ⟨i, x, hi, hx, hnewer⟩ := exists_group_of_lastWrite_flatten hw
    cases i with
    | zero => exact .inl ⟨j, y, le_rfl, hy, hsub (Option.some.inj hi ▸ hx), by omega⟩
    | succ n =>
      refine .inl ⟨j + n + 1, x, by omega, older n ▸ hi, hx, fun k z w hjk hki hz => ?_⟩
      obtain ⟨m, rfl⟩ := Nat.exists_eq_add_of_lt hjk
      exact hnewer (m + 1) z w (by omega) ((older m).trans hz)
  | none =>
    rw [hw, Option.getD_none] at hv
    refine .inr ⟨hv, fun k z w hjk hz hmem => ?_⟩
    obtain ⟨m, rfl⟩ := Nat.exists_eq_add_of_lt hjk
    exact lastWrite_eq_none.mp hw w (List.mem_flatten.mpr ⟨z, List.mem_of_getElem? ((older m).trans hz), hmem⟩)

/-- Settles O52: program order before the store, the store and its load, program order after the load; and the latest
write before a read has none after it that happens before the read, since happens-before goes forward in time. -/
theorem readsReturnNoOverwrittenValue : Obligations.ReadsReturnNoOverwrittenValue := by
  refine ⟨fun _ _ _ _ _ _ _ _ _ _ _ => happensBefore_of_syncsWith, fun s j a y g v hs hy read => ?_⟩
  rcases cellRead_cases hs hy read with ⟨i, x, hji, hx, write, last⟩ | ⟨hv, unwritten⟩
  · refine .inl ⟨i, x, hx, write, fun hb => absurd hb.lt (by omega), ?_⟩
    rintro ⟨k, z, w, hz, hw, after, before⟩
    exact last k z w before.lt after.lt hz hw
  · refine .inr ⟨hv, ?_⟩
    rintro ⟨k, z, w, hz, hw, before⟩
    exact unwritten k z w before.lt hz hw

end Sys2Proof.Machine
end

section
/-! SUPPORT. The decoder answers only commands whose operands are legal (spec/30_encoding.md R88 (2) to (4)). -/

namespace Sys2Proof

variable {cfg : Config} {count : Nat} {bs : Packet} {i j : Instr} {P : Instr → Prop}

/-! ### What the readers of the formats answer (R83) -/

theorem of_read0 (hP : P i) (h : read0 i bs = .ok j) : P j := by
  unfold read0 at h
  split at h
  · exact Except.ok.inj h ▸ hP
  · cases h

/-- A format with a unit answers with a legal one. -/
theorem of_readUnit {rest : Byte → Packet → Except Cause Instr}
    (hP : ∀ u, u.toNat < count → ∀ bs, rest u bs = .ok i → P i) (h : readUnit count rest bs = .ok i) : P i := by
  unfold readUnit at h
  split at h
  · cases h
  · split at h
    · next hu => exact hP _ hu _ h
    · cases h

theorem of_readU {mk : Byte → Instr} (hP : ∀ u, u.toNat < count → P (mk u)) (h : readU count mk bs = .ok i) : P i :=
  of_readUnit (fun u hu _ => of_read0 (hP u hu)) h

theorem of_readUB {mk : Byte → Byte → Instr} (hP : ∀ u b, u.toNat < count → P (mk u b))
    (h : readUB count mk bs = .ok i) : P i := by
  refine of_readUnit (fun u hu _ hr => ?_) h
  split at hr
  · exact Except.ok.inj hr ▸ hP u _ hu
  · cases hr

theorem of_readUH {mk : Byte → Half → Instr} (hP : ∀ u x, u.toNat < count → P (mk u x))
    (h : readUH count mk bs = .ok i) : P i := by
  refine of_readUnit (fun u hu _ hr => ?_) h
  split at hr
  · exact Except.ok.inj hr ▸ hP u _ hu
  · cases hr

theorem of_readUW {mk : Byte → Word → Instr} (hP : ∀ u x, u.toNat < count → P (mk u x))
    (h : readUW count mk bs = .ok i) : P i := by
  refine of_readUnit (fun u hu _ hr => ?_) h
  split at hr
  · exact Except.ok.inj hr ▸ hP u _ hu
  · cases hr

theorem of_readUV {len : Byte → Nat} {mk : Byte → List Byte → Instr}
    (hP : ∀ u data, u.toNat < count → data.length = len u → P (mk u data)) (h : readUV count len mk bs = .ok i) :
    P i := by
  refine of_readUnit (fun u hu data hr => ?_) h
  split at hr
  · next hlen => exact Except.ok.inj hr ▸ hP u data hu hlen
  · cases hr

theorem of_readR {mk : Byte → Instr} (hP : ∀ r, r.toNat ≤ 3 → P (mk r)) (h : readR mk bs = .ok i) : P i := by
  unfold readR at h
  split at h
  · split at h
    · next hr => exact Except.ok.inj h ▸ hP _ hr
    · cases h
  · cases h

theorem of_readRC {mk : Half → Half → Instr} (hP : ∀ row col, P (mk row col)) (h : readRC mk bs = .ok i) : P i := by
  unfold readRC at h
  split at h
  · exact Except.ok.inj h ▸ hP _ _
  · cases h

theorem of_readRCV {mk : Half → Half → Byte → Instr} (hP : ∀ row col v, P (mk row col v))
    (h : readRCV mk bs = .ok i) : P i := by
  unfold readRCV at h
  split at h
  · exact Except.ok.inj h ▸ hP _ _ _
  · cases h

/-! ### The decoder -/

theorem unitCheck_eq_none {u : Byte} : unitCheck u count = none ↔ u.toNat < count := by
  simp [unitCheck, Machine.require_eq_none]

theorem lengthCheck_eq_none {data : List Byte} {len : Nat} : lengthCheck data len = none ↔ data.length = len := by
  simp [lengthCheck, Machine.require_eq_none]

/-- Both checks of a FUV packet pass. -/
theorem firstFault_unit_length {u : Byte} {data : List Byte} {len : Nat} (hu : u.toNat < count)
    (hlen : data.length = len) : firstFault [unitCheck u count, lengthCheck data len] = none := by
  rw [unitCheck_eq_none.mpr hu, lengthCheck_eq_none.mpr hlen]
  rfl

/-- The decoder has made the checks of R88 (2) to (4). -/
theorem wf_of_decode (h : decode cfg bs = .ok i) : i.WF cfg := by
  unfold decode at h
  split at h
  case h_1 => cases h
  split at h
  case h_1 | h_3 | h_4 | h_7 | h_8 | h_27 | h_28 | h_30 | h_31 | h_32 => exact of_read0 rfl h
  case h_2 | h_5 => exact of_readRC (fun _ _ => rfl) h
  case h_6 | h_26 | h_29 => exact of_readRCV (fun _ _ _ => rfl) h
  case h_9 | h_23 => exact of_readUB (fun _ _ => unitCheck_eq_none.mpr) h
  case h_11 | h_12 | h_14 | h_15 | h_18 | h_19 | h_20 | h_21 => exact of_readU (fun _ => unitCheck_eq_none.mpr) h
  case h_10 | h_13 | h_16 | h_17 | h_22 => exact of_readUV (fun _ _ => firstFault_unit_length) h
  case h_24 => exact of_readUH (fun _ _ => unitCheck_eq_none.mpr) h
  case h_25 => exact of_readUW (fun _ _ => unitCheck_eq_none.mpr) h
  case h_33 => exact of_readR (mk := .sysRdreg) (fun _ hr => Machine.require_eq_none.mpr (decide_eq_true hr)) h
  case h_34 => cases h

end Sys2Proof
end

section
/-! SUPPORT. The lines a command drives or samples: serial, bus-writer, control and bus-reader lines. None of them is a
colour line of the scan engine (spec/00_scope.md R8, spec/20_memory.md R74). -/

namespace Sys2Proof

namespace Config

variable {cfg : Config} {id : LineId}

/-- The lines the commands have to do with: those they drive, and those of the bus readers. -/
def commandLines (cfg : Config) : List LineId :=
  cfg.serLines ++ cfg.writerLines ++ cfg.controlLines ++ cfg.readerLines

/-- WF_OWN keeps the colour lines apart from the lines of the commands (R8). -/
theorem not_mem_scanC_of_mem_commandLines (wf : cfg.WF) (h : id ∈ cfg.commandLines) : id ∉ cfg.scanC.line := by
  obtain ⟨-, -, -, -, hnodup, -, -, -, hreader, -⟩ := wf
  intro hc
  simp only [outputLines, dataLines, List.nodup_append] at hnodup
  obtain ⟨⟨-, -, hdata⟩, -, hcontrol⟩ := hnodup
  simp only [commandLines, List.mem_append] at h
  rcases h with ((h | h) | h) | h
  · exact hdata id (List.mem_append_left _ h) id hc rfl
  · exact hdata id (List.mem_append_right _ h) id hc rfl
  · exact hcontrol id (List.mem_append_right _ hc) id h rfl
  · exact hreader id h (by simp [hc])

theorem mem_commandLines_of_mem_serLines (h : id ∈ cfg.serLines) : id ∈ cfg.commandLines := by
  simp [commandLines, h]

theorem mem_commandLines_of_mem_clkLines (h : id ∈ cfg.clkLines) : id ∈ cfg.commandLines := by
  simp [commandLines, controlLines, h]

theorem mem_commandLines_of_mem_latchLines (h : id ∈ cfg.latchLines) : id ∈ cfg.commandLines := by
  simp [commandLines, controlLines, h]

theorem mem_commandLines_of_mem_clearLines {p : LineId × Level} (h : p ∈ cfg.clearLines) : p.1 ∈ cfg.commandLines := by
  simp [commandLines, controlLines, List.mem_map_of_mem (f := Prod.fst) h]

/-! ### The components' lines -/

theorem clk_mem_of_group {g : ControlGroup} (h : g ∈ cfg.groups) : g.clk ∈ cfg.clkLines :=
  List.mem_append_right _ (List.mem_map_of_mem h)

theorem latch_mem_of_group {g : ControlGroup} (h : g ∈ cfg.groups) (hl : g.latch = some id) : id ∈ cfg.latchLines :=
  List.mem_append_right _ (List.mem_filterMap.mpr ⟨g, h, hl⟩)

theorem clear_mem_of_group {g : ControlGroup} {p : LineId × Level} (h : g ∈ cfg.groups) (hc : g.clearLine = some p) :
    p ∈ cfg.clearLines :=
  List.mem_append_right _ (List.mem_filterMap.mpr ⟨g, h, hc⟩)

theorem ser_mem_of_chain {c : Chain} (h : c ∈ cfg.chains) : c.ser ∈ cfg.serLines :=
  List.mem_append_left _ (List.mem_map_of_mem h)

/-- A chain's clock is its own, or that of the group it names (R8, WF_OWN iii). -/
theorem clk_mem_of_chain {c : Chain} (wf : cfg.WF) (h : c ∈ cfg.chains) : c.clk ∈ cfg.clkLines := by
  obtain ⟨-, -, -, -, -, -, -, -, -, hgrp⟩ := wf
  cases hg : c.grp with
  | none => exact List.mem_append_left _ (List.mem_map_of_mem (by simp [h, hg]))
  | some g =>
    obtain ⟨gr, hgr, hclk⟩ := Option.map_eq_some_iff.mp (hgrp c h g (by simp [hg]))
    exact hclk ▸ clk_mem_of_group (List.mem_of_getElem? hgr)

theorem latch_mem_of_chain {c : Chain} (h : c ∈ cfg.chains) (hl : c.latch = some id) : id ∈ cfg.latchLines :=
  List.mem_append_left _ (List.mem_filterMap.mpr ⟨c, h, hl⟩)

theorem clear_mem_of_chain {c : Chain} {p : LineId × Level} (h : c ∈ cfg.chains) (hc : c.clearLine = some p) :
    p ∈ cfg.clearLines :=
  List.mem_append_left _ (List.mem_filterMap.mpr ⟨c, h, hc⟩)

/-- The clear line of a chain's device is its own or that of the group it names (R130). -/
theorem clear_mem_of_chainWiring {c : Chain} {p : LineId × Level} (h : c ∈ cfg.chains)
    (hp : (c.wiring cfg).clear = some p) : p ∈ cfg.clearLines := by
  cases hc : c.clearLine with
  | some q =>
    obtain rfl : q = p := by simpa [Chain.wiring, hc] using hp
    exact clear_mem_of_chain h hc
  | none =>
    simp only [Chain.wiring, hc, Option.bind_eq_some_iff] at hp
    obtain ⟨gr, ⟨g, -, hgr⟩, hclear⟩ := hp
    exact clear_mem_of_group (List.mem_of_getElem? hgr) hclear

theorem ser_mem_of_bank {b : Bank} (h : b ∈ cfg.banks) (hid : id ∈ b.ser) : id ∈ cfg.serLines :=
  List.mem_append_right _ (List.mem_flatMap.mpr ⟨b, h, hid⟩)

/-- An index names an element of a list, or reads as the default. -/
theorem getD_mem_or_eq {α : Type} (l : List α) (k : Nat) (d : α) : l.getD k d ∈ l ∨ l.getD k d = d := by
  by_cases h : k < l.length
  · exact .inl (List.getD_eq_getElem l d h ▸ List.getElem_mem h)
  · exact .inr (List.getD_eq_default l d (by omega))

theorem groupAt_mem_or (cfg : Config) (g : Nat) : cfg.groupAt g ∈ cfg.groups ∨ cfg.groupAt g = default :=
  getD_mem_or_eq _ _ _

theorem bankAt_mem_or (cfg : Config) (k : Nat) : cfg.bankAt k ∈ cfg.banks ∨ cfg.bankAt k = default :=
  getD_mem_or_eq _ _ _

theorem readerAt_mem_or (cfg : Config) (u : Byte) : cfg.readerAt u ∈ cfg.readers ∨ cfg.readerAt u = default :=
  getD_mem_or_eq _ _ _

theorem writerAt_mem_or (cfg : Config) (u : Byte) : cfg.writerAt u ∈ cfg.writers ∨ cfg.writerAt u = default :=
  getD_mem_or_eq _ _ _

theorem groupAt_mem {g : Nat} (h : g < cfg.groups.length) : cfg.groupAt g ∈ cfg.groups := by
  rw [groupAt, List.getD_eq_getElem _ _ h]
  exact List.getElem_mem h

theorem chainAt_mem {u : Byte} (h : u.toNat < cfg.chains.length) : cfg.chainAt u ∈ cfg.chains := by
  rw [chainAt, List.getD_eq_getElem _ _ h]
  exact List.getElem_mem h

/-- A group that does not exist has no latch line. -/
theorem latch_groupAt_mem {g : Nat} (h : (cfg.groupAt g).latch = some id) : id ∈ cfg.latchLines := by
  rcases groupAt_mem_or cfg g with hg | hg
  · exact latch_mem_of_group hg h
  · rw [hg] at h
    cases h

/-- A group that does not exist has no clear line. -/
theorem clear_groupAt_mem {g : Nat} {p : LineId × Level} (h : (cfg.groupAt g).clearLine = some p) :
    p ∈ cfg.clearLines := by
  rcases groupAt_mem_or cfg g with hg | hg
  · exact clear_mem_of_group hg h
  · rw [hg] at h
    cases h

end Config

namespace Machine

variable {cfg : Config} {ps qs : List Prim} {i : Instr}

/-! ### Step lists -/

/-- The lines a primitive drives or samples. -/
def Prim.uses : Prim → List LineId
  | .lineWrite id _ => [id]
  | .lineWriteAll ls => ls.map Prod.fst
  | .sample ids _ => ids
  | _ => []

/-- Every primitive of a step list drives and samples lines of the commands only. -/
def OnCommandLines (cfg : Config) (ps : List Prim) : Prop := ∀ p ∈ ps, p.uses ⊆ cfg.commandLines

@[simp] theorem onCommandLines_nil : OnCommandLines cfg [] := nofun

@[simp] theorem onCommandLines_cons {p : Prim} :
    OnCommandLines cfg (p :: ps) ↔ p.uses ⊆ cfg.commandLines ∧ OnCommandLines cfg ps := List.forall_mem_cons

@[simp] theorem onCommandLines_append :
    OnCommandLines cfg (ps ++ qs) ↔ OnCommandLines cfg ps ∧ OnCommandLines cfg qs := List.forall_mem_append

theorem onCommandLines_flatMap {α : Type} {l : List α} {f : α → List Prim} (h : ∀ x ∈ l, OnCommandLines cfg (f x)) :
    OnCommandLines cfg (l.flatMap f) := fun p hp => by
  obtain ⟨x, hx, hpx⟩ := List.mem_flatMap.mp hp
  exact h x hx p hpx

/-- A response drives and samples nothing. -/
@[simp] theorem uses_respond {bs : List Byte} : (Prim.respond bs).uses = [] := rfl

theorem onCommandLines_tickSteps {clk : LineId} (h : clk ∈ cfg.clkLines) : OnCommandLines cfg (tickSteps clk) := by
  simp [tickSteps, Prim.uses, Config.mem_commandLines_of_mem_clkLines h]

theorem onCommandLines_shiftByteSteps {ser clk : LineId} {b : Byte} (hs : ser ∈ cfg.serLines)
    (hc : clk ∈ cfg.clkLines) : OnCommandLines cfg (shiftByteSteps ser clk b) :=
  onCommandLines_flatMap fun k _ => by
    simp [Prim.uses, Config.mem_commandLines_of_mem_serLines hs, onCommandLines_tickSteps hc]

/-- A latch pulse drives the latch line, if there is one. -/
theorem onCommandLines_latchSteps {o : Option LineId} (h : ∀ L, o = some L → L ∈ cfg.latchLines) :
    OnCommandLines cfg (latchSteps o) := by
  cases o with
  | none => simp [latchSteps, Prim.uses]
  | some L => simp [latchSteps, Prim.uses, Config.mem_commandLines_of_mem_latchLines (h L rfl)]

/-- A clear pulse drives the clear line, if there is one. -/
theorem onCommandLines_clearSteps {o : Option (LineId × Level)} (h : ∀ p, o = some p → p ∈ cfg.clearLines) :
    OnCommandLines cfg (clearSteps o) := by
  cases o with
  | none => simp [clearSteps, Prim.uses]
  | some p => simp [clearSteps, Prim.uses, Config.mem_commandLines_of_mem_clearLines (h p rfl)]

/-! ### Chains -/

theorem onCommandLines_chainShift {c : Chain} (wf : cfg.WF) (h : c ∈ cfg.chains) (frame : List Byte) :
    OnCommandLines cfg (shiftFrameSteps c.ser c.clk frame) :=
  onCommandLines_flatMap fun _ _ =>
    onCommandLines_shiftByteSteps (Config.ser_mem_of_chain h) (Config.clk_mem_of_chain wf h)

theorem onCommandLines_chainLatch {c : Chain} (h : c ∈ cfg.chains) : OnCommandLines cfg (latchSteps c.latch) :=
  onCommandLines_latchSteps fun _ => Config.latch_mem_of_chain h

theorem onCommandLines_chainClear {c : Chain} (h : c ∈ cfg.chains) : OnCommandLines cfg (clearSteps c.clearLine) :=
  onCommandLines_clearSteps fun _ => Config.clear_mem_of_chain h

/-! ### Banks -/

/-- A bus or a bank pairs each of its lines with one level, and no other line. -/
theorem fst_zip_subset {ls : List LineId} {bits : List Level} : (ls.zip bits).map Prod.fst ⊆ ls := fun id hid => by
  obtain ⟨p, hp, rfl⟩ := List.mem_map.mp hid
  exact (List.of_mem_zip hp).1

theorem laneLevels_eq_zip (ser : List LineId) (frames : List (List Byte)) (k : Nat) :
    laneLevels ser frames k = ser.zip (frames.map fun frame => txBit frame k) := List.zipWith_map_right.symm

/-- A bank's shift drives its lanes' lines and its group's clock; without a bank of that index it is empty. -/
theorem onCommandLines_bankShiftSteps (wf : cfg.WF) (k : Nat) (frames : List (List Byte)) :
    OnCommandLines cfg (bankShiftSteps cfg (cfg.bankAt k) frames) := by
  rcases Config.bankAt_mem_or cfg k with hb | hb
  · obtain ⟨⟨-, -, -, -, -, -, -, -, hgroup⟩, -⟩ := wf
    have hclk := Config.clk_mem_of_group (Config.groupAt_mem (hgroup _ hb))
    refine onCommandLines_flatMap fun i _ => onCommandLines_cons.mpr ⟨fun id hid => ?_, onCommandLines_tickSteps hclk⟩
    rw [Prim.uses, laneLevels_eq_zip] at hid
    exact Config.mem_commandLines_of_mem_serLines (Config.ser_mem_of_bank hb (fst_zip_subset hid))
  · rw [hb]
    exact onCommandLines_nil

theorem onCommandLines_groupLatch (cfg : Config) (g : Nat) : OnCommandLines cfg (latchSteps (cfg.groupAt g).latch) :=
  onCommandLines_latchSteps fun _ => Config.latch_groupAt_mem

theorem onCommandLines_bankWriteSteps (wf : cfg.WF) (k : Nat) (frames : List (List Byte)) :
    OnCommandLines cfg (bankWriteSteps cfg (cfg.bankAt k) frames) :=
  onCommandLines_append.mpr ⟨onCommandLines_bankShiftSteps wf k frames, onCommandLines_groupLatch cfg _⟩

theorem onCommandLines_pxsWriteSteps (wf : cfg.WF) (h v : Half) (color : Byte) :
    OnCommandLines cfg (pxsWriteSteps cfg h v color) := by
  unfold pxsWriteSteps
  split
  · simp [pxsBankOf, onCommandLines_bankWriteSteps wf]
  · simp [rejectSteps, Prim.uses]

theorem onCommandLines_pxbWriteSteps (h v : Half) (color : Byte) :
    OnCommandLines cfg (pxbWriteSteps cfg h v color) := by
  unfold pxbWriteSteps
  split <;> simp [rejectSteps, Prim.uses]

/-! ### Buses -/

/-- A reader samples its own lines; one that does not exist has none. -/
theorem onCommandLines_readerSteps (u : Byte) (packing : Packing) :
    OnCommandLines cfg [.sample (cfg.readerAt u).line packing, .respondResult] := by
  refine onCommandLines_cons.mpr ⟨fun id (hline : id ∈ (cfg.readerAt u).line) => ?_, by simp [Prim.uses]⟩
  rcases Config.readerAt_mem_or cfg u with hr | hr
  · simp [Config.commandLines, Config.readerLines, List.mem_flatMap_of_mem hr hline]
  · rw [hr] at hline
    cases hline

/-- A writer drives its own lines; one that does not exist has none. -/
theorem onCommandLines_writerSteps (u : Byte) (bits : List Level) :
    OnCommandLines cfg [.lineWriteAll (driveLevels (cfg.writerAt u) bits), .respond []] := by
  refine onCommandLines_cons.mpr ⟨fun id hid => ?_, by simp [Prim.uses]⟩
  have hline : id ∈ (cfg.writerAt u).line := fst_zip_subset hid
  rcases Config.writerAt_mem_or cfg u with hw | hw
  · simp [Config.commandLines, Config.writerLines, List.mem_flatMap_of_mem hw hline]
  · rw [hw] at hline
    cases hline

/-! ### All step lists -/

/-- A legal unit of a chain command names a chain (R86). -/
theorem chainAt_mem_of_unitCheck {u : Byte} (h : unitCheck u cfg.chains.length = none) : cfg.chainAt u ∈ cfg.chains :=
  Config.chainAt_mem (unitCheck_eq_none.mp h)

/-- The same where the length of the data is checked too. -/
theorem chainAt_mem_of_firstFault {u : Byte} {cs : List (Option Cause)}
    (h : firstFault (unitCheck u cfg.chains.length :: cs) = none) : cfg.chainAt u ∈ cfg.chains :=
  chainAt_mem_of_unitCheck (firstFault_eq_none.mp h _ List.mem_cons_self)

theorem onCommandLines_of_all_uses_nil (h : ps.all (fun p => p.uses.isEmpty) = true) : OnCommandLines cfg ps :=
  fun p hp => by simp [List.isEmpty_iff.mp (List.all_eq_true.mp h p hp)]

/-- A command with legal operands drives and samples lines of the commands only. -/
theorem onCommandLines_commandSteps (wf : cfg.WF) (h : i.WF cfg) : OnCommandLines cfg (commandSteps cfg i) := by
  cases i with
  | srShiftb u b =>
    have hc := chainAt_mem_of_unitCheck h
    simpa [commandSteps, srShiftbSteps, shiftFrameSteps] using onCommandLines_chainShift wf hc [b]
  | srShiftx u data =>
    have hc := chainAt_mem_of_firstFault h
    simp [commandSteps, srShiftxSteps, onCommandLines_chainShift wf hc]
  | srLatch u => simp [commandSteps, srLatchSteps, onCommandLines_chainLatch (chainAt_mem_of_unitCheck h)]
  | srClear u => simp [commandSteps, srClearSteps, onCommandLines_chainClear (chainAt_mem_of_unitCheck h)]
  | srWritex u data =>
    have hc := chainAt_mem_of_firstFault h
    simp [commandSteps, srWritexSteps, onCommandLines_chainShift wf hc, onCommandLines_chainLatch hc]
  | cgLatchall u => simp [commandSteps, cgLatchallSteps, onCommandLines_groupLatch]
  | cgClearall u =>
    simp [commandSteps, cgClearallSteps, onCommandLines_clearSteps fun _ => Config.clear_groupAt_mem]
  | pbShiftl u data => simp [commandSteps, pbShiftlSteps, onCommandLines_bankShiftSteps wf]
  | pbWritex u data => simp [commandSteps, pbWritexSteps, onCommandLines_bankWriteSteps wf]
  | brRdbits | brRd8 | brRd16 | brRd32 => exact onCommandLines_readerSteps _ _
  | bwWrbits | bwWr8 | bwWr16 | bwWr32 => exact onCommandLines_writerSteps _ _
  | pxsWrite col row color => exact onCommandLines_pxsWriteSteps wf col row color
  | pxbWrite col row color => exact onCommandLines_pxbWriteSteps col row color
  | _ => exact onCommandLines_of_all_uses_nil rfl

/-- The checks of a command take in those of its operands. -/
theorem wf_of_commandFault {s : State} (h : commandFault i s = none) : i.WF s.cfg := by
  cases i with
  | brRd8 | brRd16 | bwWr8 | bwWr16 => exact firstFault_eq_none.mp h _ List.mem_cons_self
  | dbAopen | dbArd | dbAclose | dbIopen | dbIrd | dbIwr | dbIclose | dbSwap => rfl
  | pxsWrite | pxsArange | pxsCrange | pxbWrite | pxbPresent => rfl
  | _ => exact h

end Machine

end Sys2Proof
end

section
/-! SUPPORT. Which lines a command can move: those its primitives use, and so no line of the scan engine. -/

namespace Sys2Proof.Machine

variable {s t : State} {p : Prim} {ps : List Prim} {id : LineId}

theorem linesWf_of_inv (h : s.Inv) : Sparse.wf Config.low s.lines := h.canonical.2.1

/-- A primitive keeps the line space canonical. -/
theorem linesWf_prim (h : Sparse.wf Config.low s.lines) (p : Prim) : Sparse.wf Config.low (s.prim p).lines := by
  cases p with
  | lineWrite id l => exact linesWf_lineWrite h
  | lineWriteAll ls => exact linesWf_lineWriteAll h
  | _ => exact h

/-- A primitive keeps the level of every line it does not use (R33). -/
theorem line_prim_of_not_mem (h : Sparse.wf Config.low s.lines) (hid : id ∉ p.uses) :
    (s.prim p).line id = s.line id := by
  cases p with
  | lineWrite id' l => exact (line_lineWrite h).trans (if_neg (by simpa [Prim.uses] using hid))
  | lineWriteAll ls => exact line_lineWriteAll_of_not_mem h hid
  | _ => rfl

/-- A step list keeps the level of every line that no primitive of it uses. -/
theorem line_runPrims_of_not_mem (h : Sparse.wf Config.low s.lines) (hid : ∀ p ∈ ps, id ∉ p.uses) :
    (s.runPrims ps).line id = s.line id := by
  induction ps generalizing s with
  | nil => rfl
  | cons p ps ih =>
    rw [List.forall_mem_cons] at hid
    rw [runPrims_cons, ih (linesWf_prim h p) hid.2, line_prim_of_not_mem h hid.1]

/-- A step list on the commands' lines uses no colour line (R74). -/
theorem OnCommandLines.not_mem_uses {cfg : Config} (h : OnCommandLines cfg ps) (wf : cfg.WF) (hid : id ∈ cfg.scanC.line) :
    ∀ p ∈ ps, id ∉ p.uses :=
  fun p hp hu => Config.not_mem_scanC_of_mem_commandLines wf (h p hp hu) hid

/-- Settles O45: the step list of a command whose checks pass stays on the commands' lines, no primitive touches the scan
engine's registers or the inputs, and a fault entry touches neither these nor a line. -/
theorem commandsStayOffTheScanLines : Obligations.CommandsStayOffTheScanLines := by
  intro i s t hinv h
  rcases exec_cases h with ⟨c, -, ho⟩ | ⟨hf, ho⟩ <;> obtain rfl := Host.Outcome.next.inj ho
  · exact ⟨rfl, rfl, fun _ _ => rfl⟩
  · obtain ⟨-, -, hsc, hin, -⟩ := runPrims_outside s (commandSteps s.cfg i)
    have steps := onCommandLines_commandSteps hinv.wf (wf_of_commandFault hf)
    exact ⟨hsc, hin, fun id hid =>
      line_runPrims_of_not_mem (linesWf_of_inv hinv) (steps.not_mem_uses hinv.wf hid)⟩

end Sys2Proof.Machine
end

section
/-! SUPPORT. What a step of the command processor depends on, what it leaves to the scan engine, and the other way round
(spec/20_memory.md R74, R75). Hence the steps of the two agents commute. -/

namespace Sys2Proof

/-- Two line spaces that agree at a line agree there after the same lines are driven. -/
theorem Sparse.get_setAll_congr {α : Type} [DecidableEq α] {d : Nat → α} {m m' ps : List (Nat × α)} {k : Nat}
    (h : wf d m) (h' : wf d m') (hk : get d m k = get d m' k) : get d (setAll d m ps) k = get d (setAll d m' ps) k := by
  induction ps generalizing m m' with
  | nil => exact hk
  | cons p ps ih => exact ih (wf_set h) (wf_set h') (by rw [get_set h, get_set h', hk])

namespace Machine

variable {s t u : State} {p : Prim} {i : Instr} {id : LineId}

/-! ### What the commands look at -/

/-- The states agree in all that a step of the command processor looks at or changes: in everything but the scan engine,
the colour lines and the trace. -/
structure SameForCommands (s t : State) : Prop where
  cfg    : t.cfg = s.cfg := by rfl
  fb     : t.fb = s.fb := by rfl
  sel    : t.sel = s.sel := by rfl
  diag   : t.diag = s.diag := by rfl
  fault  : t.fault = s.fault := by rfl
  txn    : t.txn = s.txn := by rfl
  devs   : t.devs = s.devs := by rfl
  cp     : t.cp = s.cp := by rfl
  inputs : t.inputs = s.inputs := by rfl
  host   : t.host = s.host := by rfl
  agenda : t.agenda = s.agenda := by rfl
  moment : t.moment = s.moment := by rfl
  levels : ∀ id ∉ s.cfg.scanC.line, t.line id = s.line id

theorem SameForCommands.refl (s : State) : SameForCommands s s := { levels := fun _ _ => rfl }

/-- The second of two such states, written over the first. -/
theorem SameForCommands.exists_eq (h : SameForCommands s t) :
    ∃ sc lines trace, t = { s with sc := sc, lines := lines, trace := trace } := by
  obtain ⟨⟩ := t
  obtain ⟨rfl, rfl, rfl, rfl, rfl, rfl, rfl, rfl, rfl, rfl, rfl, rfl, -⟩ := h
  exact ⟨_, _, _, rfl⟩

/-- The checks of a command look at the configuration and the transactions only (R112, R113, R173). -/
theorem SameForCommands.commandFault_eq (h : SameForCommands s t) : commandFault i t = commandFault i s := by
  obtain ⟨sc, lines, trace, rfl⟩ := h.exists_eq
  cases i <;> rfl

theorem SameForCommands.sample_eq (h : SameForCommands s t) (hid : id ∉ s.cfg.scanC.line) :
    t.sample id = s.sample id := by
  simp only [State.sample, State.input, h.cfg, h.inputs, h.levels id hid]

theorem SameForCommands.sampleAll_eq (h : SameForCommands s t) {ids : List LineId}
    (hids : ∀ id ∈ ids, id ∉ s.cfg.scanC.line) : t.sampleAll ids = s.sampleAll ids :=
  List.map_congr_left fun id hid => h.sample_eq (hids id hid)

/-! ### The devices -/

/-- The serial line and the clear line of a device are lines of the commands (R130). -/
theorem wiring_mem_commandLines {cfg : Config} {w : Wiring} {d : DevId} (h : cfg.wiring d = some w) :
    w.ser ∈ cfg.commandLines ∧ ∀ p, w.clear = some p → p.1 ∈ cfg.commandLines := by
  cases d with
  | chain u =>
    obtain ⟨c, hc, rfl⟩ := Option.map_eq_some_iff.mp h
    have hmem := List.mem_of_getElem? hc
    refine ⟨Config.mem_commandLines_of_mem_serLines (Config.ser_mem_of_chain hmem), fun p hp => ?_⟩
    exact Config.mem_commandLines_of_mem_clearLines (Config.clear_mem_of_chainWiring hmem hp)
  | lane k l =>
    obtain ⟨b, hb, hl⟩ := Option.bind_eq_some_iff.mp h
    obtain ⟨ser, hser, rfl⟩ := Option.map_eq_some_iff.mp hl
    refine ⟨Config.mem_commandLines_of_mem_serLines
      (Config.ser_mem_of_bank (List.mem_of_getElem? hb) (List.mem_of_getElem? hser)), fun p hp => ?_⟩
    exact Config.mem_commandLines_of_mem_clearLines (Config.clear_groupAt_mem hp)

/-- A reaction depends on the levels of the device's serial and clear lines only (R131 to R134). -/
theorem reactionTo_congr {w : Wiring} {level level' : LineId → Level} {old new : Level}
    (hser : level' w.ser = level w.ser) (hclear : ∀ p, w.clear = some p → level' p.1 = level p.1) :
    reactionTo w level' id old new = reactionTo w level id old new := by
  have active : clearActive w level' = clearActive w level := by
    unfold clearActive
    split
    · next L act hc => rw [hclear _ hc]
    · rfl
  simp only [reactionTo, active, hser]

theorem SameForCommands.deviceAfter_eq (h : SameForCommands s t) (wf : s.cfg.WF) {old new : Level} (d : Device) :
    t.deviceAfter id old new d = s.deviceAfter id old new d := by
  cases hw : s.cfg.wiring d.id with
  | none => simp only [State.deviceAfter, h.cfg, hw]
  | some w =>
    obtain ⟨hser, hclear⟩ := wiring_mem_commandLines hw
    have level : ∀ L ∈ s.cfg.commandLines, t.line L = s.line L := fun L hL =>
      h.levels L (Config.not_mem_scanC_of_mem_commandLines wf hL)
    simp only [State.deviceAfter, h.cfg, hw, reactionTo_congr (level _ hser) fun p hp => level _ (hclear p hp)]

/-! ### Primitives -/

theorem SameForCommands.putLine (h : SameForCommands s t) (hs : Sparse.wf Config.low s.lines)
    (ht : Sparse.wf Config.low t.lines) (id : LineId) (l : Level) :
    SameForCommands (s.putLine id l) (t.putLine id l) :=
  { h with levels := fun id' hid' => by rw [line_putLine hs, line_putLine ht, h.levels id' hid'] }

/-- Driving a line of the commands moves the devices in the same way. -/
theorem SameForCommands.lineWrite (h : SameForCommands s t) (wf : s.cfg.WF) (hs : Sparse.wf Config.low s.lines)
    (ht : Sparse.wf Config.low t.lines) (hid : id ∉ s.cfg.scanC.line) (l : Level) :
    SameForCommands (s.lineWrite id l) (t.lineWrite id l) := by
  have hput := h.putLine hs ht id l
  refine { hput with devs := ?_ }
  rw [lineWrite_devs, lineWrite_devs, h.devs, h.levels id hid]
  exact List.map_congr_left fun d _ => hput.deviceAfter_eq wf d

/-- A primitive on the commands' lines does the same to both states. -/
theorem SameForCommands.prim (h : SameForCommands s t) (wf : s.cfg.WF) (hs : Sparse.wf Config.low s.lines)
    (ht : Sparse.wf Config.low t.lines) (hp : p.uses ⊆ s.cfg.commandLines) : SameForCommands (s.prim p) (t.prim p) := by
  have apart : ∀ id ∈ p.uses, id ∉ s.cfg.scanC.line := fun id hid =>
    Config.not_mem_scanC_of_mem_commandLines wf (hp hid)
  cases p with
  | lineWrite id l =>
    have hw := h.lineWrite wf hs ht (apart id List.mem_cons_self) l
    exact { hw with cp := by rw [State.prim, State.prim, advance_cp, advance_cp, hw.cp] }
  | lineWriteAll ls =>
    obtain ⟨sc, lines, trace, rfl⟩ := h.exists_eq
    exact { levels := fun id hid => Sparse.get_setAll_congr ht hs (h.levels id hid) }
  | sample ids packing =>
    have hlevels := h.sampleAll_eq apart
    obtain ⟨sc, lines, trace, rfl⟩ := h.exists_eq
    exact { levels := h.levels, cp := congrArg (fun a => { s.cp with pos := s.cp.pos + 1, result := packing.bytes a }) hlevels }
  | _ =>
    obtain ⟨sc, lines, trace, rfl⟩ := h.exists_eq
    exact { levels := h.levels }

/-! ### The move of the command processor -/

/-- What a step of the command processor can be. -/
inductive CpMove where
  | stay
  | fault (c : Cause)
  | prim (p : Prim)
  | accept (p : Packet) (rest : List Packet)

/-- The state after a move of the command processor. -/
def State.afterMove (s : State) : CpMove → State
  | .stay => s
  | .fault c => s.raiseFault c
  | .prim p => s.prim p
  | .accept p rest => s.accept p rest

/-- The lines a move drives or samples. -/
def CpMove.uses : CpMove → List LineId
  | .prim p => p.uses
  | _ => []

/-- Past the end of its step list a command does not move. -/
theorem cpStep_past_end (hb : s.cp.busy = true) (hd : decode s.cfg s.cp.cmd = .ok i)
    (hf : s.cp.pos = 0 → commandFault i s = none) (hp : (commandSteps s.cfg i)[s.cp.pos]? = none) : cpStep s = s := by
  have hprim : s.primAt i = s := by simp only [State.primAt, hp]
  by_cases h0 : s.cp.pos = 0
  · simp [cpStep, hb, hd, hf h0, hprim]
  · simp [cpStep, hb, hd, h0, hprim]

/-- A state that is the same for the commands makes this move in its next step. -/
def Moves (s : State) (m : CpMove) : Prop := ∀ t, SameForCommands s t → cpStep t = t.afterMove m

/-- The move of a processor that has a command, its checks done or failing. -/
theorem exists_moves_of_busy (wf : s.cfg.WF) (hb : s.cp.busy = true) :
    ∃ m : CpMove, m.uses ⊆ s.cfg.commandLines ∧ Moves s m := by
  cases hd : decode s.cfg s.cp.cmd with
  | error c =>
    exact ⟨.fault c, by simp [CpMove.uses], fun t h => by simp [cpStep, h.cp, h.cfg, hb, hd, State.afterMove]⟩
  | ok i =>
    have busy : ∀ t, SameForCommands s t → t.cp.busy = true := fun t h => by rw [h.cp, hb]
    have decoded : ∀ t, SameForCommands s t → decode t.cfg t.cp.cmd = .ok i := fun t h => by rw [h.cfg, h.cp, hd]
    by_cases hf : s.cp.pos = 0 → commandFault i s = none
    · have checked : ∀ t, SameForCommands s t → t.cp.pos = 0 → commandFault i t = none := fun t h => by
        rwa [h.cp, h.commandFault_eq]
      cases hp : (commandSteps s.cfg i)[s.cp.pos]? with
      | none =>
        refine ⟨.stay, by simp [CpMove.uses], fun t h => ?_⟩
        exact cpStep_past_end (busy t h) (decoded t h) (checked t h) (by rw [h.cfg, h.cp, hp])
      | some p =>
        refine ⟨.prim p, onCommandLines_commandSteps wf (wf_of_decode hd) p (List.mem_of_getElem? hp), fun t h => ?_⟩
        exact cpStep_of_prim (busy t h) (decoded t h) (checked t h) (by rw [h.cfg, h.cp, hp])
    · push Not at hf
      obtain ⟨h0, hf⟩ := hf
      obtain ⟨c, hc⟩ := Option.ne_none_iff_exists'.mp hf
      exact ⟨.fault c, by simp [CpMove.uses], fun t h =>
        cpStep_of_fault (busy t h) (decoded t h) (by rw [h.cp, h0]) (by rw [h.commandFault_eq, hc])⟩

/-- The next step of the command processor is one move on the commands' lines, and the same one in every state that is the
same for the commands. -/
theorem exists_moves (wf : s.cfg.WF) : ∃ m : CpMove, m.uses ⊆ s.cfg.commandLines ∧ Moves s m := by
  cases hb : s.cp.busy with
  | true => exact exists_moves_of_busy wf hb
  | false =>
    cases hv : s.fault.v with
    | true => exact ⟨.stay, by simp [CpMove.uses], fun t h => by simp [cpStep, h.cp, h.fault, hb, hv, State.afterMove]⟩
    | false =>
      cases hh : s.host with
      | nil =>
        exact ⟨.stay, by simp [CpMove.uses], fun t h => by
          simp [cpStep, h.cp, h.fault, h.host, hb, hv, hh, State.afterMove]⟩
      | cons packet rest =>
        exact ⟨.accept packet rest, by simp [CpMove.uses], fun t h => by
          simp [cpStep, h.cp, h.fault, h.host, hb, hv, hh, State.afterMove]⟩

/-- A move keeps states the same for the commands. -/
theorem SameForCommands.afterMove {m : CpMove} (h : SameForCommands s t) (wf : s.cfg.WF)
    (hs : Sparse.wf Config.low s.lines) (ht : Sparse.wf Config.low t.lines) (hm : m.uses ⊆ s.cfg.commandLines) :
    SameForCommands (s.afterMove m) (t.afterMove m) := by
  cases m with
  | prim p => exact h.prim wf hs ht hm
  | _ =>
    obtain ⟨sc, lines, trace, rfl⟩ := h.exists_eq
    exact { levels := h.levels }

/-! ### What the scan engine looks at -/

/-- The states agree in all that a step of the scan engine looks at or changes but the trace. -/
structure SameForScan (s t : State) : Prop where
  cfg    : t.cfg = s.cfg
  fb     : t.fb = s.fb
  sel    : t.sel = s.sel
  sc     : t.sc = s.sc
  inputs : t.inputs = s.inputs
  levels : ∀ id ∈ s.cfg.scanC.line, t.line id = s.line id

/-- The address buses carry input lines (R8, R211). -/
theorem SameForScan.sampleAll_eq (h : SameForScan s t) {ids : List LineId} (hids : ∀ id ∈ ids, id ∉ s.cfg.outputLines) :
    t.sampleAll ids = s.sampleAll ids :=
  List.map_congr_left fun id hid => by simp [State.sample, State.input, h.cfg, h.inputs, hids id hid]

/-- States the same for the scan engine have the same scan engine after its step (R212). -/
theorem SameForScan.scanStep_sc (h : SameForScan s t) (wf : s.cfg.WF) : (scanStep t).sc = (scanStep s).sc := by
  obtain ⟨-, -, -, -, -, haddr, -⟩ := wf
  have hH := h.sampleAll_eq fun id hid => haddr id (List.mem_append_left _ hid)
  have hV := h.sampleAll_eq fun id hid => haddr id (List.mem_append_right _ hid)
  cases hph : s.sc.phase <;> simp only [scanStep, h.sc, hph, emit_sc, lineWriteAll_sc]
  case sH => simp only [State.sampleAddr, h.cfg, hH]
  case sV => simp only [State.sampleAddr, h.cfg, hV]
  case sTest => rw [h.cfg]
  case sSel => rw [h.sel]
  case sRd => rw [h.cfg, readCell_congr h.cfg h.fb]

/-- States the same for the scan engine have the same levels of the colour lines after its step (R212). -/
theorem SameForScan.scanStep_line (h : SameForScan s t) (hs : Sparse.wf Config.low s.lines)
    (ht : Sparse.wf Config.low t.lines) (hid : id ∈ s.cfg.scanC.line) :
    (scanStep t).line id = (scanStep s).line id := by
  cases hph : s.sc.phase <;> simp only [scanStep, h.sc, hph]
  case sDrv =>
    rw [h.cfg]
    exact Sparse.get_setAll_congr ht hs (h.levels id hid)
  all_goals exact h.levels id hid

/-- A scan step moves the colour lines only, and nothing else that the commands look at (R74). -/
theorem sameForCommands_scanStep (h : Sparse.wf Config.low s.lines) : SameForCommands s (scanStep s) := by
  unfold scanStep
  split
  case h_6 =>
    exact { levels := fun id hid => Sparse.get_setAll_of_not_mem h fun hmem => hid (fst_zip_subset hmem) }
  all_goals exact { levels := fun _ _ => rfl }

/-- A move on the commands' lines that changes no cell and no selector changes nothing that the scan engine looks at
(R74). -/
theorem sameForScan_afterMove {m : CpMove} (wf : s.cfg.WF) (h : Sparse.wf Config.low s.lines)
    (hm : m.uses ⊆ s.cfg.commandLines) (hfb : (s.afterMove m).fb = s.fb) (hsel : (s.afterMove m).sel = s.sel) :
    SameForScan s (s.afterMove m) := by
  cases m with
  | prim p =>
    obtain ⟨hcfg, -, hsc, hin, -⟩ := prim_outside (s := s) p
    exact ⟨hcfg, hfb, hsel, hsc, hin, fun id hid => line_prim_of_not_mem h fun hu =>
      Config.not_mem_scanC_of_mem_commandLines wf (hm hu) hid⟩
  | _ => exact ⟨rfl, rfl, rfl, rfl, rfl, fun _ _ => rfl⟩

/-! ### The two steps in either order -/

/-- Two states the same for the commands as a third differ in their scan engine, lines and trace only. -/
theorem SameForCommands.eq_but_lines_trace (ht : SameForCommands s t) (hu : SameForCommands s u) (hsc : t.sc = u.sc) :
    ({ t with lines := [], trace := [] } : State) = { u with lines := [], trace := [] } := by
  obtain ⟨sc, lines, trace, rfl⟩ := ht.exists_eq
  obtain ⟨sc', lines', trace', rfl⟩ := hu.exists_eq
  obtain rfl : sc = sc' := hsc
  rfl

/-- Settles O46: the processor makes the same move before and after the scan step, which changes nothing the commands look
at; and the scan engine makes the same step before and after the move, which changes nothing that engine looks at. -/
theorem commandAndScanStepsCommute : Obligations.CommandAndScanStepsCommute := by
  intro s hinv hfb hsel
  obtain ⟨m, hm, hmoves⟩ := exists_moves hinv.wf
  have hlines := linesWf_of_inv hinv
  have scanned : SameForCommands s (scanStep s) := sameForCommands_scanStep hlines
  have hcp : cpStep s = s.afterMove m := hmoves s (.refl s)
  have hinvScan := inv_scanStep hinv
  have hinvMove : (s.afterMove m).Inv := hcp ▸ inv_stepClosed.cpStep hinv
  rw [hmoves _ scanned]
  rw [hcp] at hfb hsel ⊢
  have moveLast : SameForCommands (s.afterMove m) ((scanStep s).afterMove m) :=
    scanned.afterMove hinv.wf hlines (linesWf_of_inv hinvScan) hm
  have scanLast : SameForCommands (s.afterMove m) (scanStep (s.afterMove m)) :=
    sameForCommands_scanStep (linesWf_of_inv hinvMove)
  have moved : SameForScan s (s.afterMove m) := sameForScan_afterMove hinv.wf hlines hm hfb hsel
  have moved' : SameForScan (scanStep s) ((scanStep s).afterMove m) :=
    sameForScan_afterMove hinvScan.wf (linesWf_of_inv hinvScan) (by rwa [scanned.cfg])
      (by rw [moveLast.fb, hfb, scanned.fb]) (by rw [moveLast.sel, hsel, scanned.sel])
  refine ⟨scanLast.eq_but_lines_trace moveLast ((moved.scanStep_sc hinv.wf).trans moved'.sc.symm), fun id => ?_⟩
  by_cases hid : id ∈ s.cfg.scanC.line
  · rw [moved.scanStep_line hlines (linesWf_of_inv hinvMove) hid, moved'.levels id (by rwa [scanned.cfg])]
  · rw [scanLast.levels id (by rwa [moved.cfg]), moveLast.levels id (by rwa [moved.cfg])]

end Machine
end Sys2Proof
end

section
/-! SUPPORT. What the reader of each format accepts (spec/30_encoding.md R83): exactly the operand bytes the encoder
writes, with a legal unit, length and register number. Decoding and encoding are inverse by it. -/

namespace Sys2Proof

variable {cfg : Config} {count : Nat} {bs : Packet} {i : Instr}

/-! ### The bytes of a number and the number of some bytes (R82) -/

theorem bytesLE_natLE (bs : List Byte) : bytesLE bs.length (natLE bs) = bs := by
  induction bs with
  | nil => rfl
  | cons b bs ih =>
    have hb := b.isLt
    have hlow : BitVec.ofNat 8 (b.toNat + 256 * natLE bs) = b := BitVec.eq_of_toNat_eq (by simp; omega)
    have hhigh : (b.toNat + 256 * natLE bs) / 256 = natLE bs := by omega
    rw [List.length_cons, natLE, bytesLE_succ, hlow, hhigh, ih]

theorem natLE_lt (bs : List Byte) : natLE bs < 256 ^ bs.length := by
  induction bs with
  | nil => simp [natLE]
  | cons b bs ih =>
    have hb := b.isLt
    rw [List.length_cons, natLE, pow_succ]
    omega

theorem bytesLE_toNat_half (lo hi : Byte) : bytesLE 2 (half lo hi).toNat = [lo, hi] := by
  rw [half, BitVec.toNat_ofNat, Nat.mod_eq_of_lt (by simpa using natLE_lt [lo, hi])]
  exact bytesLE_natLE [lo, hi]

theorem bytesLE_toNat_word (b0 b1 b2 b3 : Byte) : bytesLE 4 (word b0 b1 b2 b3).toNat = [b0, b1, b2, b3] := by
  rw [word, BitVec.toNat_ofNat, Nat.mod_eq_of_lt (by simpa using natLE_lt [b0, b1, b2, b3])]
  exact bytesLE_natLE [b0, b1, b2, b3]

/-! ### The readers of the formats -/

theorem read0_eq_ok {j : Instr} : read0 i bs = .ok j ↔ bs = [] ∧ i = j := by
  cases bs <;> simp [read0]

theorem readUnit_eq_ok {rest : Byte → Packet → Except Cause Instr} :
    readUnit count rest bs = .ok i ↔ ∃ u ds, bs = u :: ds ∧ u.toNat < count ∧ rest u ds = .ok i := by
  cases bs with
  | nil => simp [readUnit]
  | cons u ds => by_cases hu : u.toNat < count <;> simp [readUnit, hu]

theorem readU_eq_ok {mk : Byte → Instr} :
    readU count mk bs = .ok i ↔ ∃ u, bs = [u] ∧ u.toNat < count ∧ mk u = i := by
  simp [readU, readUnit_eq_ok, read0_eq_ok, and_left_comm]

theorem readUB_eq_ok {mk : Byte → Byte → Instr} :
    readUB count mk bs = .ok i ↔ ∃ u b, bs = [u, b] ∧ u.toNat < count ∧ mk u b = i := by
  constructor
  · intro h
    obtain ⟨u, ds, rfl, hu, hr⟩ := readUnit_eq_ok.mp h
    split at hr
    · exact ⟨u, _, rfl, hu, Except.ok.inj hr⟩
    · cases hr
  · rintro ⟨u, b, rfl, hu, rfl⟩
    exact readUnit_eq_ok.mpr ⟨u, [b], rfl, hu, rfl⟩

theorem readUH_eq_ok {mk : Byte → Half → Instr} :
    readUH count mk bs = .ok i ↔ ∃ u x, bs = u :: bytesLE 2 x.toNat ∧ u.toNat < count ∧ mk u x = i := by
  constructor
  · intro h
    obtain ⟨u, ds, rfl, hu, hr⟩ := readUnit_eq_ok.mp h
    split at hr
    · next b0 b1 => exact ⟨u, half b0 b1, by rw [bytesLE_toNat_half], hu, Except.ok.inj hr⟩
    · cases hr
  · rintro ⟨u, x, rfl, hu, rfl⟩
    exact readUnit_eq_ok.mpr ⟨u, _, rfl, hu, by simp only [bytesLE_half, half_bytesLE]⟩

theorem readUW_eq_ok {mk : Byte → Word → Instr} :
    readUW count mk bs = .ok i ↔ ∃ u x, bs = u :: bytesLE 4 x.toNat ∧ u.toNat < count ∧ mk u x = i := by
  constructor
  · intro h
    obtain ⟨u, ds, rfl, hu, hr⟩ := readUnit_eq_ok.mp h
    split at hr
    · next b0 b1 b2 b3 => exact ⟨u, word b0 b1 b2 b3, by rw [bytesLE_toNat_word], hu, Except.ok.inj hr⟩
    · cases hr
  · rintro ⟨u, x, rfl, hu, rfl⟩
    exact readUnit_eq_ok.mpr ⟨u, _, rfl, hu, by simp only [bytesLE_word, word_bytesLE]⟩

theorem readUV_eq_ok {len : Byte → Nat} {mk : Byte → List Byte → Instr} :
    readUV count len mk bs = .ok i ↔
      ∃ u data, bs = u :: data ∧ (u.toNat < count ∧ data.length = len u) ∧ mk u data = i := by
  rw [readUV, readUnit_eq_ok]
  refine exists_congr fun u => exists_congr fun data => ?_
  by_cases hlen : data.length = len u <;> simp [hlen]

theorem readR_eq_ok {mk : Byte → Instr} : readR mk bs = .ok i ↔ ∃ r, bs = [r] ∧ r.toNat ≤ 3 ∧ mk r = i := by
  constructor
  · intro h
    unfold readR at h
    split at h
    · split at h
      · next r hr => exact ⟨r, rfl, hr, Except.ok.inj h⟩
      · cases h
    · cases h
  · rintro ⟨r, rfl, hr, rfl⟩
    exact if_pos hr

theorem readRC_eq_ok {mk : Half → Half → Instr} :
    readRC mk bs = .ok i ↔ ∃ row col, bs = bytesLE 2 row.toNat ++ bytesLE 2 col.toNat ∧ mk row col = i := by
  constructor
  · intro h
    unfold readRC at h
    split at h
    · next r0 r1 c0 c1 => exact ⟨half r0 r1, half c0 c1, by simp [bytesLE_toNat_half], Except.ok.inj h⟩
    · cases h
  · rintro ⟨row, col, rfl, rfl⟩
    simp only [bytesLE_half, List.cons_append, List.nil_append, readRC, half_bytesLE]

theorem readRCV_eq_ok {mk : Half → Half → Byte → Instr} :
    readRCV mk bs = .ok i ↔
      ∃ row col v, bs = bytesLE 2 row.toNat ++ bytesLE 2 col.toNat ++ [v] ∧ mk row col v = i := by
  constructor
  · intro h
    unfold readRCV at h
    split at h
    · next r0 r1 c0 c1 v => exact ⟨half r0 r1, half c0 c1, v, by simp [bytesLE_toNat_half], Except.ok.inj h⟩
    · cases h
  · rintro ⟨row, col, v, rfl, rfl⟩
    simp only [bytesLE_half, List.cons_append, List.nil_append, readRCV, half_bytesLE]

theorem firstFault_unit_length_eq_none {u : Byte} {data : List Byte} {len : Nat} :
    firstFault [unitCheck u count, lengthCheck data len] = none ↔ u.toNat < count ∧ data.length = len := by
  simp [Machine.firstFault_eq_none, unitCheck_eq_none, lengthCheck_eq_none]

/-! ### The two round trips -/

/-- Settles O1: the operand bytes the encoder writes are those the reader of the command's format accepts. -/
theorem decodeOfEncodeIsTheCommand : Obligations.DecodeOfEncodeIsTheCommand := by
  intro cfg i h
  cases i with
  | dbAopen | dbAclose | dbIopen | dbIclose | dbSwap => exact read0_eq_ok.mpr ⟨rfl, rfl⟩
  | pxsArange | pxsCrange | pxbArange | pxbCrange | pxbPresent => exact read0_eq_ok.mpr ⟨rfl, rfl⟩
  | dbArd row col | dbIrd row col => exact readRC_eq_ok.mpr ⟨row, col, rfl, rfl⟩
  | dbIwr row col v | pxsWrite row col v | pxbWrite row col v => exact readRCV_eq_ok.mpr ⟨row, col, v, rfl, rfl⟩
  | srLatch u | srClear u | cgLatchall u | cgClearall u | brRdbits u | brRd8 u | brRd16 u | brRd32 u =>
    exact readU_eq_ok.mpr ⟨u, rfl, unitCheck_eq_none.mp h, rfl⟩
  | srShiftb u b | bwWr8 u b => exact readUB_eq_ok.mpr ⟨u, b, rfl, unitCheck_eq_none.mp h, rfl⟩
  | bwWr16 u x => exact readUH_eq_ok.mpr ⟨u, x, rfl, unitCheck_eq_none.mp h, rfl⟩
  | bwWr32 u x => exact readUW_eq_ok.mpr ⟨u, x, rfl, unitCheck_eq_none.mp h, rfl⟩
  | srShiftx u data | srWritex u data | pbShiftl u data | pbWritex u data | bwWrbits u data =>
    exact readUV_eq_ok.mpr ⟨u, data, rfl, firstFault_unit_length_eq_none.mp h, rfl⟩
  | sysRdreg r => exact readR_eq_ok.mpr ⟨r, rfl, of_decide_eq_true (Machine.require_eq_none.mp h), rfl⟩

/-- A packet is determined by the number of its opcode and its other bytes. -/
theorem cons_eq_of_toNat_eq {op op' : Byte} (h : op.toNat = op'.toNat) : op' :: bs = op :: bs := by
  rw [BitVec.eq_of_toNat_eq h]

/-- The reader of the opcode's format accepts no operand bytes but those the encoder writes. -/
theorem encode_of_decode (h : decode cfg bs = .ok i) : encode i = bs := by
  unfold decode at h
  split at h
  case h_1 => cases h
  split at h
  case h_1 hop | h_3 hop | h_4 hop | h_7 hop | h_8 hop | h_27 hop | h_28 hop | h_30 hop | h_31 hop | h_32 hop =>
    obtain ⟨rfl, rfl⟩ := read0_eq_ok.mp h
    exact cons_eq_of_toNat_eq hop
  case h_2 hop | h_5 hop =>
    obtain ⟨row, col, rfl, rfl⟩ := readRC_eq_ok.mp h
    exact cons_eq_of_toNat_eq hop
  case h_6 hop | h_26 hop | h_29 hop =>
    obtain ⟨row, col, v, rfl, rfl⟩ := readRCV_eq_ok.mp h
    exact cons_eq_of_toNat_eq hop
  case h_9 hop | h_23 hop =>
    obtain ⟨u, b, rfl, -, rfl⟩ := readUB_eq_ok.mp h
    exact cons_eq_of_toNat_eq hop
  case h_11 hop | h_12 hop | h_14 hop | h_15 hop | h_18 hop | h_19 hop | h_20 hop | h_21 hop =>
    obtain ⟨u, rfl, -, rfl⟩ := readU_eq_ok.mp h
    exact cons_eq_of_toNat_eq hop
  case h_10 hop | h_13 hop | h_16 hop | h_17 hop | h_22 hop =>
    obtain ⟨u, data, rfl, -, rfl⟩ := readUV_eq_ok.mp h
    exact cons_eq_of_toNat_eq hop
  case h_24 hop =>
    obtain ⟨u, x, rfl, -, rfl⟩ := readUH_eq_ok.mp h
    exact cons_eq_of_toNat_eq hop
  case h_25 hop =>
    obtain ⟨u, x, rfl, -, rfl⟩ := readUW_eq_ok.mp h
    exact cons_eq_of_toNat_eq hop
  case h_33 hop =>
    obtain ⟨r, rfl, -, rfl⟩ := readR_eq_ok.mp h
    exact cons_eq_of_toNat_eq hop
  case h_34 => cases h

/-- Settles O2: the decoder has made the checks of well-formedness, and it accepts only what the encoder writes. -/
theorem encodeOfDecodeIsThePacket : Obligations.EncodeOfDecodeIsThePacket :=
  fun _ _ _ h => ⟨wf_of_decode h, encode_of_decode h⟩

/-- Settles O3: each packet is the encoding of its command, whose unit, length and register RI allows. -/
theorem packetsOfTheSpecDecode : Obligations.PacketsOfTheSpecDecode := by
  have hdecode := decodeOfEncodeIsTheCommand Config.ri
  exact ⟨hdecode .dbAopen rfl, hdecode (.dbIwr 3 5 200) rfl, hdecode (.srWritex 0 [0xA5, 0x3C]) rfl,
    hdecode (.cgLatchall 0) rfl, hdecode (.pbWritex 0 [0x00, 0x05, 0x00, 0x03, 0x00, 0xC8]) rfl,
    hdecode (.brRd32 0) rfl, hdecode (.bwWr32 0 0x12345678) rfl, hdecode (.pxsWrite 5 3 200) rfl,
    hdecode (.sysRdreg 2) rfl⟩

end Sys2Proof
end

section
/-! SUPPORT. The order of the decoder's checks (spec/30_encoding.md R88 (1) to (4)): a packet with a unit goes
through the reader of the unit byte first, and then, as one without a unit from the start, through a check of its
exact length. -/

namespace Sys2Proof

open Machine

variable {cfg : Config} {k : Nat} {f : Format}

/-- How a packet of opcode k and format f is read from its second byte on: with the count of the units, the unit byte is
looked at first; in both forms a packet that has not the format's length is illegal. -/
inductive ReadInOrder (cfg : Config) (k : Nat) (f : Format) : Option Nat → (Packet → Except Cause Instr) → Prop
  | unit {count : Nat} {rest : Byte → Packet → Except Cause Instr}
      (length : ∀ u ds, ds.length + 2 ≠ f.len cfg k u → rest u ds = .error .illegalCommand) :
      ReadInOrder cfg k f (some count) (readUnit count rest)
  | noUnit {read : Packet → Except Cause Instr}
      (length : ∀ u bs, bs.length + 1 ≠ f.len cfg k u → read bs = .error .illegalCommand) :
      ReadInOrder cfg k f none read

section

variable {count : Nat} {read : Packet → Except Cause Instr} {u : Byte}

theorem ReadInOrder.missingUnit (h : ReadInOrder cfg k f (some count) read) : read [] = .error .illegalCommand := by
  cases h
  rfl

theorem ReadInOrder.badUnit {ds : Packet} (h : ReadInOrder cfg k f (some count) read) (hu : count ≤ u.toNat) :
    read (u :: ds) = .error .badUnit := by
  cases h
  exact if_neg (Nat.not_lt.mpr hu)

theorem ReadInOrder.wrongLength_of_unit {ds : Packet} (h : ReadInOrder cfg k f (some count) read)
    (hu : u.toNat < count) (hlen : ds.length + 2 ≠ f.len cfg k u) : read (u :: ds) = .error .illegalCommand := by
  cases h with
  | unit length => exact (if_pos hu).trans (length u ds hlen)

theorem ReadInOrder.wrongLength {bs : Packet} (h : ReadInOrder cfg k f none read)
    (hlen : bs.length + 1 ≠ f.len cfg k u) : read bs = .error .illegalCommand := by
  cases h with
  | noUnit length => exact length u bs hlen

end

/-! ### The readers of the formats -/

theorem readInOrder_read0 {i : Instr} : ReadInOrder cfg k .f0 none (read0 i) :=
  .noUnit fun _ bs h => match bs with
    | [] => absurd rfl h
    | _ :: _ => rfl

theorem readInOrder_readU {count : Nat} {mk : Byte → Instr} :
    ReadInOrder cfg k .fu (some count) (readU count mk) :=
  .unit fun _ ds h => match ds with
    | [] => absurd rfl h
    | _ :: _ => rfl

theorem readInOrder_readUB {count : Nat} {mk : Byte → Byte → Instr} :
    ReadInOrder cfg k .fub (some count) (readUB count mk) :=
  .unit fun _ ds h => by
    split
    · exact absurd rfl h
    · rfl

theorem readInOrder_readUH {count : Nat} {mk : Byte → Half → Instr} :
    ReadInOrder cfg k .fuh (some count) (readUH count mk) :=
  .unit fun _ ds h => by
    split
    · exact absurd rfl h
    · rfl

theorem readInOrder_readUW {count : Nat} {mk : Byte → Word → Instr} :
    ReadInOrder cfg k .fuw (some count) (readUW count mk) :=
  .unit fun _ ds h => by
    split
    · exact absurd rfl h
    · rfl

theorem readInOrder_readUV {count : Nat} {len : Byte → Nat} {mk : Byte → List Byte → Instr}
    (hlen : dataLen cfg k = len) : ReadInOrder cfg k .fuv (some count) (readUV count len mk) :=
  .unit fun u ds h => if_neg fun hds => h (by rw [Format.len, hlen, hds, Nat.add_comm])

theorem readInOrder_readR {mk : Byte → Instr} : ReadInOrder cfg k .fr none (readR mk) :=
  .noUnit fun _ bs h => by
    unfold readR
    split
    · exact absurd rfl h
    · rfl

theorem readInOrder_readRC {mk : Half → Half → Instr} : ReadInOrder cfg k .frc none (readRC mk) :=
  .noUnit fun _ bs h => by
    unfold readRC
    split
    · exact absurd rfl h
    · rfl

theorem readInOrder_readRCV {mk : Half → Half → Byte → Instr} (hf : f = .frcv ∨ f = .fpx) :
    ReadInOrder cfg k f none (readRCV mk) :=
  .noUnit fun u bs h => by
    have hlen : f.len cfg k u = 6 := by rcases hf with rfl | rfl <;> rfl
    unfold readRCV
    split
    · exact absurd hlen.symm h
    · rfl

/-! ### The decoder -/

/-- Every listed opcode is read in the order of R88, by the reader of its format. -/
theorem readInOrder_decode (h : formatOf k = some f) :
    ReadInOrder cfg k f (unitCount cfg k) fun bs => decode cfg (BitVec.ofNat 8 k :: bs) := by
  unfold formatOf at h
  split at h
  case h_34 => cases h
  all_goals obtain rfl := Option.some.inj h
  case h_1 | h_3 | h_4 | h_7 | h_8 | h_27 | h_28 | h_30 | h_31 | h_32 => exact readInOrder_read0
  case h_2 | h_5 => exact readInOrder_readRC
  case h_6 => exact readInOrder_readRCV (.inl rfl)
  case h_26 | h_29 => exact readInOrder_readRCV (.inr rfl)
  case h_9 | h_23 => exact readInOrder_readUB
  case h_11 | h_12 | h_14 | h_15 | h_18 | h_19 | h_20 | h_21 => exact readInOrder_readU
  case h_10 | h_13 | h_16 | h_17 | h_22 => exact readInOrder_readUV rfl
  case h_24 => exact readInOrder_readUH
  case h_25 => exact readInOrder_readUW
  case h_33 => exact readInOrder_readR

/-- Settles O5: the reader of the opcode's format takes the unit byte, the unit and the length in this order, and that
of SYS.RDREG the register number last. -/
theorem packetChecksComeInOrder : Obligations.PacketChecksComeInOrder := by
  intro cfg op bs f hf
  have hread : ReadInOrder cfg op.toNat f (unitCount cfg op.toNat) fun bs => decode cfg (op :: bs) := by
    simpa using readInOrder_decode hf
  refine ⟨?_, ?_, ?_, ?_, ?_⟩
  · rintro hcount rfl
    obtain ⟨n, hn⟩ := Option.ne_none_iff_exists'.mp hcount
    exact (hn ▸ hread).missingUnit
  · rintro n u ds hn rfl hu
    exact (hn ▸ hread).badUnit hu
  · rintro n u ds hn rfl hu hlen
    exact (hn ▸ hread).wrongLength_of_unit hu hlen
  · intro u hn hlen
    exact (hn ▸ hread).wrongLength hlen
  · rintro r rfl rfl hr
    exact if_neg (Nat.not_le.mpr hr)

/-! ### Opcodes in no row of the table (R87) -/

/-- Settles O4: the listed opcodes lie between the ranges, and the decoder's last arm takes the others. -/
theorem unlistedOpcodesAreIllegal : Obligations.UnlistedOpcodesAreIllegal := by
  refine ⟨fun cfg op bs hop => ?_, fun _ => rfl⟩
  simp only [BitVec.le_def, BitVec.reduceToNat] at hop
  unfold decode
  dsimp only
  split
  case h_34 => rfl
  all_goals omega

end Sys2Proof
end

section
/-! SUPPORT. The whole-command turn on an offered packet (spec/30_encoding.md R80), and the checks of a command that
come first (R88). -/

namespace Sys2Proof.Machine

variable {s : State} {p : Packet} {rest : List Packet} {i : Instr} {c : Cause}

/-! ### The turn of the command processor -/

theorem commandTurn_of_offered (hbusy : s.cp.busy = false) (hv : s.fault.v = false) (hhost : s.host = p :: rest) :
    commandTurn s = finishCommand (s.accept p rest) := by
  simp [commandTurn, hbusy, hv, hhost]

theorem finishCommand_accept_of_ok (h : decode s.cfg p = .ok i) :
    finishCommand (s.accept p rest) = exec i (s.accept p rest) := by
  rw [finishCommand, show decode (s.accept p rest).cfg (s.accept p rest).cp.cmd = .ok i from h]
  rfl

theorem finishCommand_accept_of_error (h : decode s.cfg p = .error c) :
    finishCommand (s.accept p rest) = .next ((s.accept p rest).raiseFault c) := by
  rw [finishCommand, show decode (s.accept p rest).cfg (s.accept p rest).cp.cmd = .error c from h]

/-- Settles O6: the turn accepts the packet offered and finishes it as the decoder answers. -/
theorem stepRunsTheDecodedCommand : Obligations.StepRunsTheDecodedCommand := by
  intro s p rest hturn hbusy hv hhost
  have hstep : step s = finishCommand (s.begun.accept p rest) := by
    rw [step, hturn]
    exact commandTurn_of_offered (s := s.begun) hbusy hv hhost
  rw [hstep]
  exact ⟨fun i => finishCommand_accept_of_ok (s := s.begun), fun c => finishCommand_accept_of_error (s := s.begun)⟩

/-- Settles O7: withFetchWord offers the word's packet to the idle processor and gives it the next turn. -/
theorem fetchedWordRuns : Obligations.FetchedWordRuns := by
  intro s nbits w i h
  exact (stepRunsTheDecodedCommand (s.withFetchWord nbits w) (wordPacket s.cfg nbits w) s.host rfl rfl rfl rfl).1 i h

/-! ### The checks that come first -/

/-- The checks of a command's operands come before its others. -/
theorem commandFault_of_operandFault (h : i.operandFault s.cfg = some c) : commandFault i s = some c := by
  cases i with
  | brRd8 | brRd16 | bwWr8 | bwWr16 => exact (congrArg (fun x => firstFault [x, _]) h).trans firstFault_some
  | dbAopen | dbArd | dbAclose | dbIopen | dbIrd | dbIwr | dbIclose | dbSwap => cases h
  | pxsWrite | pxsArange | pxsCrange | pxbWrite | pxbArange | pxbCrange | pxbPresent => cases h
  | _ => exact h

/-- Settles O14: the operands are checked first, and the bank is the one check of its writer's three commands. -/
theorem badOperandsFault : Obligations.BadOperandsFault := by
  refine ⟨fun i s c h => exec_of_fault (commandFault_of_operandFault h), fun s h v color hbank => ?_⟩
  have hcheck : pxsBankCheck s.cfg = some .badUnit := by simp [pxsBankCheck, hbank]
  exact ⟨exec_of_fault hcheck, exec_of_fault hcheck, exec_of_fault hcheck⟩

end Sys2Proof.Machine
end

section
/-! SUPPORT. Where a command writes cells: in the buffer that is not active, by the one access of its step list. So no
step but a reset writes a cell of the buffer that is active when it begins (spec/40_double_buffer.md R124). -/

namespace Sys2Proof.Machine

variable {s t : State} {i : Instr} {p : Prim} {ps : List Prim} {r c a : Nat} {v : Byte}

/-! ### The two writes -/

/-- The buffers share no cell (R31). -/
theorem cellAddr_ne_not {cfg : Config} {b : Bool} {r' c' : Nat} (h : cfg.inGrid r c = true)
    (h' : cfg.inGrid r' c' = true) : cfg.cellAddr b r c ≠ cfg.cellAddr (!b) r' c' := fun e => by
  obtain ⟨hb, -, -⟩ := Config.cellAddr_inj h h' e
  exact absurd hb (by simp)

theorem readCell_prim_writeInactive (h : Memory.wf s.cfg s.fb) :
    (s.prim (.writeInactive r c v)).readCell a = if a = s.cfg.cellAddr s.txn.wsnap r c then v else s.readCell a :=
  readCell_putCell h

theorem readCell_prim_writePixel (h : Memory.wf s.cfg s.fb) :
    (s.prim (.writePixel r c v)).readCell a = if a = s.cfg.cellAddr (!s.sel) r c then v else s.readCell a :=
  readCell_putCell h

/-! ### The active buffer -/

/-- The configuration stays, and every cell of the buffer active in the first state reads the same in the second. -/
def ActiveKept (s t : State) : Prop :=
  t.cfg = s.cfg ∧ ∀ r c, s.cfg.inGrid r c = true → t.cell s.sel r c = s.cell s.sel r c

/-- Every cell stays where the configuration and the cell space do. -/
theorem activeKept_of_fb_eq (hcfg : t.cfg = s.cfg) (hfb : t.fb = s.fb) : ActiveKept s t :=
  ⟨hcfg, fun _ _ _ => by rw [State.cell, State.cell, hcfg, readCell_congr hcfg hfb]⟩

/-- What comes after and leaves the configuration and the cells alone leaves the active buffer kept. -/
theorem ActiveKept.of_fb_eq {u : State} (h : ActiveKept s t) (hcfg : u.cfg = t.cfg) (hfb : u.fb = t.fb) :
    ActiveKept s u :=
  ⟨hcfg.trans h.1, fun r c hg => by rw [← h.2 r c hg, State.cell, State.cell, hcfg, readCell_congr hcfg hfb]⟩

/-- A permitted write goes to the inactive buffer: an open writer transaction works on it (R29), and PXB.WRITE takes the
complement of the selector (R197). No other primitive writes a cell. -/
theorem activeKept_prim (h : s.Inv) (hp : p.Permitted s) : ActiveKept s (s.prim p) := by
  obtain ⟨cellsWf, -, -⟩ := h.canonical
  cases p with
  | writeInactive r' c' v =>
    obtain ⟨hio, hg'⟩ := hp
    obtain ⟨-, -, hws⟩ := h.txn
    refine ⟨rfl, fun r c hg => (readCell_prim_writeInactive cellsWf).trans (if_neg ?_)⟩
    rw [hws hio]
    exact cellAddr_ne_not hg hg'
  | writePixel r' c' v =>
    obtain ⟨-, hg'⟩ := hp
    exact ⟨rfl, fun r c hg => (readCell_prim_writePixel cellsWf).trans (if_neg (cellAddr_ne_not hg (hg' h.wf)))⟩
  | _ => exact activeKept_of_fb_eq rfl rfl

/-! ### The command processor

A swap followed by a write need not keep the buffer active before both, so ActiveKept is not transitive and StepClosed
does not apply. What holds instead: only the first primitive of a command can write a cell. -/

/-- A primitive that is permitted whatever the transactions are writes no cell. -/
theorem prim_fb_of_permitted (h : ∀ u : State, p.Permitted u) : (s.prim p).fb = s.fb := by
  cases p with
  | writeInactive r c v =>
    have hio : false = true := (h { s with txn := { s.txn with io := false } }).1
    cases hio
  | writePixel r c v =>
    have hio : true = false := (h { s with txn := { s.txn with io := true } }).1
    cases hio
  | _ => rfl

theorem runPrims_fb_of_permitted (h : ∀ p ∈ ps, ∀ u : State, p.Permitted u) : (s.runPrims ps).fb = s.fb := by
  induction ps generalizing s with
  | nil => rfl
  | cons p ps ih =>
    rw [List.forall_mem_cons] at h
    rw [runPrims_cons, ih h.2, prim_fb_of_permitted h.1]

/-- A command writes at most with the first primitive of its step list, and that one is permitted. -/
theorem activeKept_exec (hinv : s.Inv) (h : exec i s = .next t) : ActiveKept s t := by
  rcases exec_cases h with ⟨c, -, ho⟩ | ⟨hf, ho⟩ <;> obtain rfl := Host.Outcome.next.inj ho
  · exact activeKept_of_fb_eq rfl rfl
  · have head := fun p => permitted_of_commandFault_eq_none (p := p) hf
    have tail := fun p (hp : p ∈ (commandSteps s.cfg i).tail) (u : State) => permitted_tail (s := u) hp
    generalize commandSteps s.cfg i = steps at head tail
    cases steps with
    | nil => exact activeKept_of_fb_eq rfl rfl
    | cons p ps =>
      have first := activeKept_prim hinv (head p List.mem_cons_self)
      exact first.of_fb_eq (runPrims_cfg (ps := ps)) (runPrims_fb_of_permitted tail)

theorem activeKept_finishCommand (hinv : s.Inv) (h : finishCommand s = .next t) : ActiveKept s t := by
  unfold finishCommand at h
  split at h
  · exact Host.Outcome.next.inj h ▸ activeKept_of_fb_eq rfl rfl
  · next i _ =>
    split at h
    · exact activeKept_exec hinv h
    · next hpos =>
      obtain rfl := Host.Outcome.next.inj h
      refine activeKept_of_fb_eq runPrims_cfg (runPrims_fb_of_permitted fun p hp u => ?_)
      obtain ⟨k, hk⟩ := Nat.exists_eq_succ_of_ne_zero hpos
      rw [hk, ← List.drop_tail] at hp
      exact permitted_tail (List.mem_of_mem_drop hp)

theorem activeKept_commandTurn (hinv : s.Inv) (h : commandTurn s = .next t) : ActiveKept s t := by
  unfold commandTurn at h
  split at h
  · exact activeKept_finishCommand hinv h
  · split at h
    · exact Host.Outcome.next.inj h ▸ activeKept_of_fb_eq rfl rfl
    · next hv =>
      split at h
      · exact Host.Outcome.next.inj h ▸ activeKept_of_fb_eq rfl rfl
      · next packet rest _ =>
        exact activeKept_finishCommand (s := s.accept packet rest) (inv_accept hinv (by simpa using hv) packet rest) h

/-- The first primitive comes after the checks, and a later one is permitted in any state. -/
theorem activeKept_primAt (hinv : s.Inv) (h : s.cp.pos = 0 → commandFault i s = none) :
    ActiveKept s (s.primAt i) := by
  unfold State.primAt
  split
  · next p hp =>
    refine activeKept_prim hinv ?_
    cases hpos : s.cp.pos with
    | zero => exact permitted_of_commandFault_eq_none (h hpos) (List.mem_of_getElem? hp)
    | succ k =>
      rw [hpos, ← List.getElem?_tail] at hp
      exact permitted_tail (List.mem_of_getElem? hp)
  · exact activeKept_of_fb_eq rfl rfl

theorem activeKept_cpStep (hinv : s.Inv) : ActiveKept s (cpStep s) := by
  unfold cpStep
  split
  · split
    · exact activeKept_of_fb_eq rfl rfl
    · split
      · split
        · exact activeKept_of_fb_eq rfl rfl
        · next hf => exact activeKept_primAt hinv fun _ => hf
      · next hpos => exact activeKept_primAt hinv fun h => absurd h hpos
  · split
    · exact activeKept_of_fb_eq rfl rfl
    · split <;> exact activeKept_of_fb_eq rfl rfl

/-! ### Every step -/

/-- The scan engine reads cells and writes none (R212). -/
theorem activeKept_scanStep : ActiveKept s (scanStep s) := by
  unfold scanStep
  split <;> exact activeKept_of_fb_eq rfl rfl

theorem activeKept_takeTurn {turn : Turn} (hinv : s.Inv) (hn : turn.isReset = false) (h : takeTurn turn s = .next t) :
    ActiveKept s t := by
  cases turn with
  | command => exact activeKept_commandTurn hinv h
  | cp => exact Host.Outcome.next.inj h ▸ activeKept_cpStep hinv
  | scan => exact Host.Outcome.next.inj h ▸ activeKept_scanStep
  | env levels => exact Host.Outcome.next.inj h ▸ activeKept_of_fb_eq rfl rfl
  | reset cfg d => cases hn

/-- Settles O57: a turn of the command processor has one access to the cells, which spares the active buffer; a turn of
the scan engine or of the environment has none that writes. -/
theorem activeBufferIsNeverWritten : Obligations.ActiveBufferIsNeverWritten :=
  fun s _ hinv hn h => activeKept_takeTurn (s := s.begun) (inv_begun hinv) hn h

end Sys2Proof.Machine
end

section
/-! SUPPORT. The DoubleBuffer commands and the bus-scan pixel writer (spec/40_double_buffer.md R112 to R122): the
transaction each requires, and the exact state each answers. -/

namespace Sys2Proof.Machine

variable {s : State} {i : Instr} {c d : Cause} {row col h v : Half} {val color : Byte}

/-! ### The transaction each command requires (R112) -/

theorem exec_dbAopen_of_open (hao : s.txn.ao = true) : exec .dbAopen s = .next (s.raiseFault .protocol) :=
  exec_of_fault (by simp [commandFault, dbAopenFault, hao])

theorem exec_dbArd_of_closed (hao : s.txn.ao = false) : exec (.dbArd row col) s = .next (s.raiseFault .protocol) :=
  exec_of_fault (by simp [commandFault, dbArdFault, hao])

theorem exec_dbAclose_of_closed (hao : s.txn.ao = false) : exec .dbAclose s = .next (s.raiseFault .protocol) :=
  exec_of_fault (by simp [commandFault, dbAcloseFault, hao])

theorem exec_dbIopen_of_open (hio : s.txn.io = true) : exec .dbIopen s = .next (s.raiseFault .protocol) :=
  exec_of_fault (by simp [commandFault, dbIopenFault, hio])

theorem exec_dbIrd_of_closed (hio : s.txn.io = false) : exec (.dbIrd row col) s = .next (s.raiseFault .protocol) :=
  exec_of_fault (by simp [commandFault, dbIrdFault, hio])

theorem exec_dbIwr_of_closed (hio : s.txn.io = false) :
    exec (.dbIwr row col val) s = .next (s.raiseFault .protocol) :=
  exec_of_fault (by simp [commandFault, dbIwrFault, hio])

theorem exec_dbIclose_of_closed (hio : s.txn.io = false) : exec .dbIclose s = .next (s.raiseFault .protocol) :=
  exec_of_fault (by simp [commandFault, dbIcloseFault, hio])

theorem exec_dbSwap_of_open (hio : s.txn.io = true) : exec .dbSwap s = .next (s.raiseFault .protocol) :=
  exec_of_fault (by simp [commandFault, dbSwapFault, hio])

theorem exec_pxbWrite_of_open (hio : s.txn.io = true) :
    exec (.pxbWrite h v color) s = .next (s.raiseFault .protocol) :=
  exec_of_fault (by simp [commandFault, pxbWriteFault, hio])

theorem exec_pxbPresent_of_open (hio : s.txn.io = true) : exec .pxbPresent s = .next (s.raiseFault .protocol) :=
  exec_of_fault (by simp [commandFault, pxbPresentFault, hio])

/-! ### No other command checks a transaction -/

theorem require_eq_some {ok : Bool} : require ok c = some d ↔ ok = false ∧ c = d := by cases ok <;> simp

/-- The fault of a list of checks is the fault of one of them. -/
theorem mem_of_firstFault_eq_some {cs : List (Option Cause)} (h : firstFault cs = some c) : some c ∈ cs := by
  induction cs with
  | nil => cases h
  | cons x cs ih =>
    cases x with
    | none => exact List.mem_cons_of_mem _ (ih h)
    | some d => exact List.mem_cons.mpr (.inl h.symm)

/-- The checks of the operands raise BAD_UNIT and ILLEGAL_COMMAND only (R88 (2) to (4)). -/
theorem operandFault_ne_protocol {cfg : Config} : i.operandFault cfg ≠ some .protocol := fun h => by
  cases i with
  | srShiftx | srWritex | pbShiftl | pbWritex | bwWrbits =>
    have hmem := mem_of_firstFault_eq_some h
    simp [unitCheck, lengthCheck, eq_comm (a := some Cause.protocol), require_eq_some] at hmem
  | _ => simp [Instr.operandFault, unitCheck, require_eq_some] at h

/-- The checks of an operand and of a width raise no PROTOCOL (R88, R232, R233). -/
theorem firstFault_width_ne_protocol {cfg : Config} {b : Bus} {k : Nat} (hd : d ≠ .protocol) :
    firstFault [i.operandFault cfg, widthCheck b k d] ≠ some .protocol := fun h => by
  rcases List.mem_pair.mp (mem_of_firstFault_eq_some h) with h | h
  · exact operandFault_ne_protocol h.symm
  · exact hd (require_eq_some.mp h.symm).2

theorem open_of_closedCheck {isOpen : Bool} (h : require (!isOpen) .protocol = some .protocol) : isOpen = true := by
  simpa using (require_eq_some.mp h).1

/-- The index check of a cell command raises INDEX, so its PROTOCOL is its transaction's (R112, R113). -/
theorem closed_of_cellCheck {isOpen inGrid : Bool}
    (h : firstFault [require isOpen .protocol, require inGrid .index] = some .protocol) : isOpen = false := by
  cases isOpen with
  | false => rfl
  | true => cases inGrid <;> cases h

/-- Settles O13: each of the ten commands checks its transaction first, and no other check raises PROTOCOL. -/
theorem transactionStateIsRequired : Obligations.TransactionStateIsRequired := by
  refine ⟨fun s row col h v val color => ⟨exec_dbAopen_of_open, exec_dbArd_of_closed, exec_dbAclose_of_closed,
    exec_dbIopen_of_open, exec_dbIrd_of_closed, exec_dbIwr_of_closed, exec_dbIclose_of_closed, exec_dbSwap_of_open,
    exec_pxbWrite_of_open, exec_pxbPresent_of_open⟩, fun i s hf => ?_⟩
  have hop : i.operandFault s.cfg ≠ some .protocol := operandFault_ne_protocol
  cases i with
  | dbAopen => exact .inl ⟨open_of_closedCheck hf, rfl⟩
  | dbArd row col => exact .inr (.inl ⟨closed_of_cellCheck hf, .inl ⟨row, col, rfl⟩⟩)
  | dbAclose => exact .inr (.inl ⟨(require_eq_some.mp hf).1, .inr rfl⟩)
  | dbIopen => exact .inr (.inr (.inl ⟨open_of_closedCheck hf, by simp⟩))
  | dbSwap => exact .inr (.inr (.inl ⟨open_of_closedCheck hf, by simp⟩))
  | pxbWrite h v color => exact .inr (.inr (.inl ⟨open_of_closedCheck hf, by simp⟩))
  | pxbPresent => exact .inr (.inr (.inl ⟨open_of_closedCheck hf, by simp⟩))
  | dbIrd row col => exact .inr (.inr (.inr ⟨closed_of_cellCheck hf, by simp⟩))
  | dbIwr row col val => exact .inr (.inr (.inr ⟨closed_of_cellCheck hf, by simp⟩))
  | dbIclose => exact .inr (.inr (.inr ⟨(require_eq_some.mp hf).1, by simp⟩))
  | brRd8 | brRd16 | bwWr8 | bwWr16 => exact absurd hf (firstFault_width_ne_protocol nofun)
  | pxsWrite | pxsArange | pxsCrange => exact absurd (require_eq_some.mp hf).2 nofun
  | pxbArange | pxbCrange => cases hf
  | _ => exact absurd hf hop

/-! ### The reader transaction -/

theorem exec_dbAopen_of_closed (hao : s.txn.ao = false) : exec .dbAopen s = .next { s with
    txn := { s.txn with ao := true, asnap := s.sel }, cp := Cp.idle,
    trace := [.resp []] :: [.selLoad .host s.sel] :: s.trace } :=
  exec_of_ok (by simp [commandFault, dbAopenFault, hao])

theorem exec_dbAclose_of_open (hao : s.txn.ao = true) : exec .dbAclose s = .next { s with
    txn := { s.txn with ao := false, asnap := false }, cp := Cp.idle, trace := [.resp []] :: [] :: s.trace } :=
  exec_of_ok (by simp [commandFault, dbAcloseFault, hao])

/-- Settles O17: the check of the transaction passes and the one access follows, or it fails. -/
theorem readerTransactionOpensAndCloses : Obligations.ReaderTransactionOpensAndCloses :=
  fun _ => ⟨exec_dbAopen_of_closed, exec_dbAclose_of_open, exec_dbAopen_of_open, exec_dbAclose_of_closed⟩

/-! ### The writer transaction -/

theorem exec_dbIopen_of_closed (hio : s.txn.io = false) : exec .dbIopen s = .next { s with
    txn := { s.txn with io := true, wsnap := !s.sel }, cp := Cp.idle, trace := [.resp []] :: [] :: s.trace } :=
  exec_of_ok (by simp [commandFault, dbIopenFault, hio])

theorem exec_dbIclose_of_open (hio : s.txn.io = true) : exec .dbIclose s = .next { s with
    txn := { s.txn with io := false, wsnap := false }, cp := Cp.idle, trace := [.resp []] :: [] :: s.trace } :=
  exec_of_ok (by simp [commandFault, dbIcloseFault, hio])

/-- Settles O18: the check of the transaction passes and the one access follows, or it fails. -/
theorem writerTransactionOpensAndCloses : Obligations.WriterTransactionOpensAndCloses :=
  fun _ => ⟨exec_dbIopen_of_closed, exec_dbIclose_of_open, exec_dbIopen_of_open, exec_dbIclose_of_closed⟩

/-! ### Cells -/

/-- Settles O19: the transaction is open and the index in the grid, so both checks pass and the one access reads. -/
theorem cellReadsReturnTheSnapshotsCell : Obligations.CellReadsReturnTheSnapshotsCell := by
  intro s row col hrow hcol
  have hg : s.cfg.inGrid row.toNat col.toNat = true := Config.inGrid_iff.mpr ⟨hrow, hcol⟩
  exact ⟨fun hao => exec_of_ok (by simp [commandFault, dbArdFault, hao, hg]),
    fun hio => exec_of_ok (by simp [commandFault, dbIrdFault, hio, hg])⟩

/-- Settles O20: both checks pass, and the write is the one access. -/
theorem inactiveWriteChangesOneCell : Obligations.InactiveWriteChangesOneCell := by
  intro s row col val cellsWf hio hrow hcol
  have hg : s.cfg.inGrid row.toNat col.toNat = true := Config.inGrid_iff.mpr ⟨hrow, hcol⟩
  exact ⟨_, exec_of_ok (by simp [commandFault, dbIwrFault, hio, hg]), rfl,
    fun _ => readCell_prim_writeInactive cellsWf⟩

/-! ### The swap -/

theorem exec_dbSwap_of_closed (hio : s.txn.io = false) : exec .dbSwap s = .next { s with
    sel := !s.sel, cp := Cp.idle, trace := [.resp []] :: [.selStore (!s.sel)] :: s.trace } :=
  exec_of_ok (by simp [commandFault, dbSwapFault, hio])

theorem exec_pxbPresent_of_closed (hio : s.txn.io = false) : exec .pxbPresent s = .next { s with
    sel := !s.sel, cp := Cp.idle, trace := [.resp []] :: [.selStore (!s.sel)] :: s.trace } :=
  exec_of_ok (by simp [commandFault, pxbPresentFault, hio])

/-- Settles O21: both commands check the transaction and take the one store of a swap. -/
theorem swapAndPresentComplementTheSelector : Obligations.SwapAndPresentComplementTheSelector :=
  fun _ hio => ⟨exec_dbSwap_of_closed hio, exec_pxbPresent_of_closed hio⟩

/-! ### A pixel and the present -/

/-- A pixel of the grid, its colour within the bounds, is in the bus-scan writer's domain (R191, R196). -/
theorem inDomain_pxbDomain {cfg : Config} (hh : h.toNat < cfg.w) (hv : v.toNat < cfg.h) (hmin : cfg.pxbKmin ≤ color)
    (hmax : color ≤ cfg.pxbKmax) : inDomain (pxbDomain cfg) h v color = true := by
  have hcol : h.toNat ≤ cfg.w - 1 := Nat.le_sub_one_of_lt hh
  have hrow : v.toNat ≤ cfg.h - 1 := Nat.le_sub_one_of_lt hv
  simp [inDomain, pxbDomain, hcol, hrow, hmin, hmax]

/-- PXB.WRITE in range writes its one cell and responds (R197). -/
theorem exec_pxbWrite_of_inDomain (hio : s.txn.io = false) (hd : inDomain (pxbDomain s.cfg) h v color = true) :
    exec (.pxbWrite h v color) s = .next ((s.prim (.writePixel v.toNat h.toNat color)).respond []) := by
  rw [exec_of_ok (by simp [commandFault, pxbWriteFault, hio]), commandSteps, pxbWriteSteps, if_pos hd]
  rfl

/-- Settles O40: PXB.WRITE spares the active buffer and keeps the selector; the swap of PXB.PRESENT moves no cell, so
the cell written is read in the buffer that is active now. -/
theorem pixelIsActiveOnlyAfterThePresent : Obligations.PixelIsActiveOnlyAfterThePresent := by
  intro s h v color hinv hio hh hv hmin hmax
  obtain ⟨cellsWf, -, -⟩ := hinv.canonical
  have hwrite := exec_pxbWrite_of_inDomain hio (inDomain_pxbDomain hh hv hmin hmax)
  obtain ⟨-, kept⟩ := activeKept_exec hinv hwrite
  exact ⟨_, _, hwrite, exec_pxbPresent_of_closed hio, kept, rfl, rfl,
    (readCell_prim_writePixel cellsWf).trans (if_pos rfl)⟩

end Sys2Proof.Machine
end

section
/-! SUPPORT. The control lines of the block, each with the level at which it is active: clocks and latches at 1, clears at
their own (spec/41_shift_register.md R138). A pulse takes such a line from its idle level to its active one and back. -/

namespace Sys2Proof

namespace Config

variable {cfg : Config} {id L : LineId} {p q : LineId × Level}

/-- The clock, latch and clear lines, each with its active level. -/
def activeLevels (cfg : Config) : List (LineId × Level) :=
  (cfg.clkLines ++ cfg.latchLines).map (fun id => (id, true)) ++ cfg.clearLines

theorem map_fst_activeLevels : cfg.activeLevels.map Prod.fst = cfg.controlLines := by
  simp [activeLevels, controlLines, Function.comp_def]

theorem active_of_mem_clkLines (h : id ∈ cfg.clkLines) : (id, true) ∈ cfg.activeLevels := by
  simp [activeLevels, h]

theorem active_of_mem_latchLines (h : id ∈ cfg.latchLines) : (id, true) ∈ cfg.activeLevels := by
  simp [activeLevels, h]

theorem active_of_mem_clearLines (h : p ∈ cfg.clearLines) : p ∈ cfg.activeLevels :=
  List.mem_append_right _ h

theorem mem_controlLines_of_active (h : p ∈ cfg.activeLevels) : p.1 ∈ cfg.controlLines :=
  map_fst_activeLevels ▸ List.mem_map_of_mem h

/-! ### The roles of the lines do not overlap (R8, WF_OWN) -/

theorem controlLines_nodup (wf : cfg.WF) : cfg.controlLines.Nodup := by
  obtain ⟨-, -, -, -, hnodup, -⟩ := wf
  obtain ⟨-, hcontrol, -⟩ := List.nodup_append.mp hnodup
  exact hcontrol

/-- A control line has one active level. -/
theorem eq_of_active (wf : cfg.WF) (hp : p ∈ cfg.activeLevels) (hq : q ∈ cfg.activeLevels) (h : p.1 = q.1) : p = q :=
  List.inj_on_of_nodup_map (map_fst_activeLevels ▸ controlLines_nodup wf) hp hq h

theorem latch_ne_clk (wf : cfg.WF) (hL : L ∈ cfg.latchLines) (hid : id ∈ cfg.clkLines) : L ≠ id := by
  obtain ⟨hnodup, -, -⟩ := List.nodup_append.mp (controlLines_nodup wf)
  obtain ⟨-, -, hne⟩ := List.nodup_append.mp hnodup
  exact (hne id hid L hL).symm

theorem clear_ne_clk (wf : cfg.WF) (hp : p ∈ cfg.clearLines) (hid : id ∈ cfg.clkLines) : p.1 ≠ id := by
  obtain ⟨-, -, hne⟩ := List.nodup_append.mp (controlLines_nodup wf)
  exact (hne id (List.mem_append_left _ hid) p.1 (List.mem_map_of_mem hp)).symm

theorem clear_ne_latch (wf : cfg.WF) (hp : p ∈ cfg.clearLines) (hL : L ∈ cfg.latchLines) : p.1 ≠ L := by
  obtain ⟨-, -, hne⟩ := List.nodup_append.mp (controlLines_nodup wf)
  exact (hne L (List.mem_append_right _ hL) p.1 (List.mem_map_of_mem hp)).symm

theorem not_mem_controlLines_of_mem_dataLines (wf : cfg.WF) (h : id ∈ cfg.dataLines) : id ∉ cfg.controlLines := by
  obtain ⟨-, -, -, -, hnodup, -⟩ := wf
  obtain ⟨-, -, hne⟩ := List.nodup_append.mp hnodup
  exact fun hc => hne id h id hc rfl

theorem not_mem_controlLines_of_mem_serLines (wf : cfg.WF) (h : id ∈ cfg.serLines) : id ∉ cfg.controlLines :=
  not_mem_controlLines_of_mem_dataLines wf (by simp [dataLines, h])

theorem ser_ne_clk (wf : cfg.WF) (hs : L ∈ cfg.serLines) (hid : id ∈ cfg.clkLines) : L ≠ id := fun h =>
  not_mem_controlLines_of_mem_serLines wf hs (mem_controlLines_of_active (h ▸ active_of_mem_clkLines hid))

theorem not_mem_controlLines_of_mem_writerLines (wf : cfg.WF) (h : id ∈ cfg.writerLines) : id ∉ cfg.controlLines :=
  not_mem_controlLines_of_mem_dataLines wf (by simp [dataLines, h])

theorem not_mem_controlLines_of_mem_scanC (wf : cfg.WF) (h : id ∈ cfg.scanC.line) : id ∉ cfg.controlLines :=
  not_mem_controlLines_of_mem_dataLines wf (by simp [dataLines, h])

theorem not_mem_controlLines_of_mem_readerLines (wf : cfg.WF) (h : id ∈ cfg.readerLines) : id ∉ cfg.controlLines := by
  obtain ⟨-, -, -, -, -, -, -, -, hreader, -⟩ := wf
  exact fun hc => hreader id h (by simp [hc])

end Config

namespace Machine

variable {s t : State} {id L : LineId} {l : Level}

/-! ### Idle levels -/

theorem controlIdle_iff : s.ControlIdle ↔ ∀ p ∈ s.cfg.activeLevels, s.line p.1 = !p.2 := by
  simp [State.ControlIdle, Config.activeLevels, or_imp, forall_and]

/-- Idleness depends on the levels of the control lines only. -/
theorem controlIdle_congr (hcfg : t.cfg = s.cfg) (hlevel : ∀ id ∈ s.cfg.controlLines, t.line id = s.line id)
    (h : s.ControlIdle) : t.ControlIdle := by
  rw [controlIdle_iff] at h ⊢
  intro p hp
  rw [hcfg] at hp
  rw [hlevel _ (Config.mem_controlLines_of_active hp), h p hp]

/-- Reset drives each clear line to its inactive level and leaves clocks and latches low (R33, R261). -/
theorem controlIdle_resetWith {cfg : Config} (wf : cfg.WF) (d : Draw) : (State.resetWith cfg d).ControlIdle := by
  have clearsNodup : (cfg.dataLines ++ cfg.clearLines.map Prod.fst).Nodup := by
    obtain ⟨-, -, -, -, hnodup, -⟩ := wf
    exact hnodup.sublist ((List.Sublist.refl _).append (List.sublist_append_right _ _))
  have hnames : ((cfg.dataLines.map fun id => (id, Sparse.get Config.low d.lines id)) ++
      cfg.clearLines.map fun p => (p.1, !p.2)).map Prod.fst = cfg.dataLines ++ cfg.clearLines.map Prod.fst := by
    simp [Function.comp_def]
  have low : ∀ id ∈ cfg.clkLines ++ cfg.latchLines, (State.resetWith cfg d).line id = false := fun id hid => by
    refine Sparse.get_setAll_of_not_mem Sparse.wf_nil ?_
    rw [hnames, List.mem_append, not_or]
    refine ⟨fun hdata => ?_, fun hclear => ?_⟩
    · exact Config.not_mem_controlLines_of_mem_dataLines wf hdata (List.mem_append_left _ hid)
    · obtain ⟨-, -, hne⟩ := List.nodup_append.mp (Config.controlLines_nodup wf)
      exact hne id hid id hclear rfl
  refine ⟨fun L hL => low L (List.mem_append_left _ hL), fun L hL => low L (List.mem_append_right _ hL), fun p hp => ?_⟩
  exact Sparse.get_setAll_of_mem Sparse.wf_nil (hnames ▸ clearsNodup) (p := (p.1, !p.2))
    (List.mem_append_right _ (List.mem_map_of_mem hp))

/-! ### Pulses -/

/-- A line goes to a level and back: the tick of a clock, the pulse of a latch or of a clear (R13, R137). -/
def pulse (L : LineId) (l : Level) : List Prim := [.lineWrite L l, .lineWrite L (!l)]

theorem tickSteps_eq_pulse (clk : LineId) : tickSteps clk = pulse clk true := rfl

theorem latchSteps_some (L : LineId) : latchSteps (some L) = pulse L true := rfl

theorem clearSteps_some (p : LineId × Level) : clearSteps (some p) = pulse p.1 p.2 := rfl

/-- A pulse from the other level leaves every line where it was. -/
theorem line_runPrims_pulse (h : Sparse.wf Config.low s.lines) (hL : s.line L = !l) :
    (s.runPrims (pulse L l)).line id = s.line id := by
  have first : (s.prim (.lineWrite L l)).line id = if id = L then l else s.line id := line_lineWrite h
  have second : (s.runPrims (pulse L l)).line id = if id = L then !l else (s.prim (.lineWrite L l)).line id :=
    line_lineWrite (linesWf_prim h _)
  rw [second, first]
  by_cases hid : id = L <;> simp [hid, hL]

end Machine

end Sys2Proof
end

section
/-! SUPPORT. Every command begun on idle control lines leaves them idle, and the steps of all agents keep that the command
in execution will (spec/41_shift_register.md R138). -/

namespace Sys2Proof.Machine

variable {s t : State} {cfg : Config} {i : Instr} {p : Prim} {ps qs : List Prim} {id : LineId}

/-! ### Step lists that leave the control lines idle -/

/-- Taken from idle control lines, the step list leaves them idle. -/
def KeepsIdle (cfg : Config) (ps : List Prim) : Prop :=
  ∀ s : State, s.cfg = cfg → Sparse.wf Config.low s.lines → s.ControlIdle → (s.runPrims ps).ControlIdle

theorem linesWf_runPrims (h : Sparse.wf Config.low s.lines) : Sparse.wf Config.low (s.runPrims ps).lines := by
  induction ps generalizing s with
  | nil => exact h
  | cons p ps ih => exact ih (linesWf_prim h p)

theorem KeepsIdle.append (h : KeepsIdle cfg ps) (h' : KeepsIdle cfg qs) : KeepsIdle cfg (ps ++ qs) :=
  fun s hs hwf hidle => by
    rw [runPrims_append]
    exact h' _ (runPrims_cfg.trans hs) (linesWf_runPrims hwf) (h s hs hwf hidle)

theorem keepsIdle_flatMap {α : Type} {l : List α} {f : α → List Prim} (h : ∀ x ∈ l, KeepsIdle cfg (f x)) :
    KeepsIdle cfg (l.flatMap f) := by
  induction l with
  | nil => exact fun _ _ _ hidle => hidle
  | cons x xs ih =>
    rw [List.forall_mem_cons] at h
    exact h.1.append (ih h.2)

/-- A step list that uses no control line leaves them as they are. -/
theorem keepsIdle_of_uses (h : ∀ p ∈ ps, ∀ id ∈ p.uses, id ∉ cfg.controlLines) : KeepsIdle cfg ps := by
  rintro s rfl hwf hidle
  exact controlIdle_congr runPrims_cfg
    (fun id hid => line_runPrims_of_not_mem hwf fun p hp hu => h p hp id hu hid) hidle

/-- A step list that drives and samples nothing. -/
theorem keepsIdle_of_all_uses_nil (h : ps.all (fun p => p.uses.isEmpty) = true) : KeepsIdle cfg ps :=
  keepsIdle_of_uses fun p hp id hid => by simp [List.isEmpty_iff.mp (List.all_eq_true.mp h p hp)] at hid

theorem KeepsIdle.respond {bs : List Byte} (h : KeepsIdle cfg ps) : KeepsIdle cfg (ps ++ [.respond bs]) :=
  h.append (keepsIdle_of_all_uses_nil rfl)

/-- A pulse begins and ends at the line's idle level. -/
theorem keepsIdle_pulse {L : LineId} {l : Level} (h : (L, l) ∈ cfg.activeLevels) : KeepsIdle cfg (pulse L l) := by
  rintro s rfl hwf hidle
  exact controlIdle_congr runPrims_cfg (fun _ _ => line_runPrims_pulse hwf (controlIdle_iff.mp hidle _ h)) hidle

/-- One bit on serial lines and one tick of a clock. -/
theorem keepsIdle_tick {clk : LineId} (hclk : clk ∈ cfg.clkLines) (h : ∀ id ∈ p.uses, id ∉ cfg.controlLines) :
    KeepsIdle cfg (p :: tickSteps clk) := by
  rw [tickSteps_eq_pulse]
  exact (keepsIdle_of_uses (ps := [p]) (by simpa using h)).append
    (keepsIdle_pulse (Config.active_of_mem_clkLines hclk))

theorem keepsIdle_shiftFrameSteps {ser clk : LineId} (wf : cfg.WF) (hser : ser ∈ cfg.serLines)
    (hclk : clk ∈ cfg.clkLines) (frame : List Byte) : KeepsIdle cfg (shiftFrameSteps ser clk frame) :=
  keepsIdle_flatMap fun _ _ => keepsIdle_flatMap fun _ _ => keepsIdle_tick hclk
    (by simpa [Prim.uses] using Config.not_mem_controlLines_of_mem_serLines wf hser)

/-- A latch pulses the line it owns, or gives the diagnostic. -/
theorem keepsIdle_latchSteps {o : Option LineId} (h : ∀ L, o = some L → L ∈ cfg.latchLines) :
    KeepsIdle cfg (latchSteps o) := by
  cases o with
  | none => exact keepsIdle_of_all_uses_nil rfl
  | some L =>
    rw [latchSteps_some]
    exact keepsIdle_pulse (Config.active_of_mem_latchLines (h L rfl))

/-- A clear pulses the line it owns, or gives the diagnostic. -/
theorem keepsIdle_clearSteps {o : Option (LineId × Level)} (h : ∀ q, o = some q → q ∈ cfg.clearLines) :
    KeepsIdle cfg (clearSteps o) := by
  cases o with
  | none => exact keepsIdle_of_all_uses_nil rfl
  | some q =>
    rw [clearSteps_some]
    exact keepsIdle_pulse (Config.active_of_mem_clearLines (h q rfl))

/-! ### Commands -/

theorem keepsIdle_chainShift {c : Chain} (wf : cfg.WF) (h : c ∈ cfg.chains) (frame : List Byte) :
    KeepsIdle cfg (shiftFrameSteps c.ser c.clk frame) :=
  keepsIdle_shiftFrameSteps wf (Config.ser_mem_of_chain h) (Config.clk_mem_of_chain wf h) frame

theorem keepsIdle_chainLatch {c : Chain} (h : c ∈ cfg.chains) : KeepsIdle cfg (latchSteps c.latch) :=
  keepsIdle_latchSteps fun _ => Config.latch_mem_of_chain h

theorem keepsIdle_chainClear {c : Chain} (h : c ∈ cfg.chains) : KeepsIdle cfg (clearSteps c.clearLine) :=
  keepsIdle_clearSteps fun _ => Config.clear_mem_of_chain h

/-- A bank that does not exist has no lines, and its shift no steps. -/
theorem keepsIdle_bankShiftSteps (wf : cfg.WF) (k : Nat) (frames : List (List Byte)) :
    KeepsIdle cfg (bankShiftSteps cfg (cfg.bankAt k) frames) := by
  rcases Config.bankAt_mem_or cfg k with hb | hb
  · have ⟨⟨_, _, _, _, _, _, _, _, hgroup⟩, _⟩ := wf
    have hclk := Config.clk_mem_of_group (Config.groupAt_mem (hgroup _ hb))
    refine keepsIdle_flatMap fun i _ => keepsIdle_tick hclk fun id hid => ?_
    rw [Prim.uses, laneLevels_eq_zip] at hid
    exact Config.not_mem_controlLines_of_mem_serLines wf (Config.ser_mem_of_bank hb (fst_zip_subset hid))
  · rw [hb]
    exact keepsIdle_of_all_uses_nil rfl

theorem keepsIdle_groupLatch (g : Nat) : KeepsIdle cfg (latchSteps (cfg.groupAt g).latch) :=
  keepsIdle_latchSteps fun _ => Config.latch_groupAt_mem

theorem keepsIdle_groupClear (g : Nat) : KeepsIdle cfg (clearSteps (cfg.groupAt g).clearLine) :=
  keepsIdle_clearSteps fun _ => Config.clear_groupAt_mem

theorem keepsIdle_bankWriteSteps (wf : cfg.WF) (k : Nat) (frames : List (List Byte)) :
    KeepsIdle cfg (bankWriteSteps cfg (cfg.bankAt k) frames) :=
  (keepsIdle_bankShiftSteps wf k frames).append (keepsIdle_groupLatch _)

theorem keepsIdle_pxsWriteSteps (wf : cfg.WF) (h v : Half) (color : Byte) :
    KeepsIdle cfg (pxsWriteSteps cfg h v color) := by
  unfold pxsWriteSteps
  split
  · exact (keepsIdle_bankWriteSteps wf _ _).respond
  · exact keepsIdle_of_all_uses_nil rfl

theorem keepsIdle_pxbWriteSteps (h v : Half) (color : Byte) : KeepsIdle cfg (pxbWriteSteps cfg h v color) := by
  unfold pxbWriteSteps
  split <;> exact keepsIdle_of_all_uses_nil rfl

/-- A reader's line is no control line (R8, WF_OWN v). -/
theorem keepsIdle_readerSteps (wf : cfg.WF) (u : Byte) (packing : Packing) :
    KeepsIdle cfg [.sample (cfg.readerAt u).line packing, .respondResult] := by
  refine keepsIdle_of_uses (List.forall_mem_cons.mpr ⟨fun id hid => ?_, by simp [Prim.uses]⟩)
  change id ∈ (cfg.readerAt u).line at hid
  rcases Config.readerAt_mem_or cfg u with hr | hr
  · exact Config.not_mem_controlLines_of_mem_readerLines wf (List.mem_flatMap_of_mem hr hid)
  · rw [hr] at hid
    cases hid

/-- A writer's line is no control line (R8, WF_OWN ii). -/
theorem keepsIdle_writerSteps (wf : cfg.WF) (u : Byte) (bits : List Level) :
    KeepsIdle cfg [.lineWriteAll (driveLevels (cfg.writerAt u) bits), .respond []] := by
  refine keepsIdle_of_uses (List.forall_mem_cons.mpr ⟨fun id hid => ?_, by simp [Prim.uses]⟩)
  have hline : id ∈ (cfg.writerAt u).line := fst_zip_subset hid
  rcases Config.writerAt_mem_or cfg u with hw | hw
  · exact Config.not_mem_controlLines_of_mem_writerLines wf (List.mem_flatMap_of_mem hw hline)
  · rw [hw] at hline
    cases hline

/-- A command with legal operands moves control lines by whole pulses only. -/
theorem keepsIdle_commandSteps (wf : cfg.WF) (h : i.WF cfg) : KeepsIdle cfg (commandSteps cfg i) := by
  cases i with
  | srShiftb u b =>
    have hshift := keepsIdle_chainShift wf (chainAt_mem_of_unitCheck h) [b]
    rw [shiftFrameSteps, List.flatMap_singleton] at hshift
    exact hshift.respond
  | srShiftx u data => exact (keepsIdle_chainShift wf (chainAt_mem_of_firstFault h) data).respond
  | srLatch u => exact (keepsIdle_chainLatch (chainAt_mem_of_unitCheck h)).respond
  | srClear u => exact (keepsIdle_chainClear (chainAt_mem_of_unitCheck h)).respond
  | srWritex u data =>
    have hc := chainAt_mem_of_firstFault h
    exact ((keepsIdle_chainShift wf hc data).append (keepsIdle_chainLatch hc)).respond
  | cgLatchall u => exact (keepsIdle_groupLatch _).respond
  | cgClearall u => exact (keepsIdle_groupClear _).respond
  | pbShiftl u data => exact (keepsIdle_bankShiftSteps wf _ _).respond
  | pbWritex u data => exact (keepsIdle_bankWriteSteps wf _ _).respond
  | brRdbits | brRd8 | brRd16 | brRd32 => exact keepsIdle_readerSteps wf _ _
  | bwWrbits | bwWr8 | bwWr16 | bwWr32 => exact keepsIdle_writerSteps wf _ _
  | pxsWrite col row color => exact keepsIdle_pxsWriteSteps wf col row color
  | pxbWrite col row color => exact keepsIdle_pxbWriteSteps col row color
  | _ => exact keepsIdle_of_all_uses_nil rfl

/-! ### What is left of the command in execution -/

/-- The primitives the command in execution has still to take; none where it will fault or none is in execution. -/
def State.remaining (s : State) : List Prim :=
  if s.cp.busy then
    match decode s.cfg s.cp.cmd with
    | .error _ => []
    | .ok i => if s.cp.pos = 0 ∧ commandFault i s ≠ none then [] else (commandSteps s.cfg i).drop s.cp.pos
  else []

theorem remaining_of_idle (hb : s.cp.busy = false) : s.remaining = [] := by simp [State.remaining, hb]

theorem remaining_of_error {c : Cause} (hd : decode s.cfg s.cp.cmd = .error c) : s.remaining = [] := by
  simp [State.remaining, hd]

theorem remaining_of_fault {c : Cause} (hd : decode s.cfg s.cp.cmd = .ok i) (h0 : s.cp.pos = 0)
    (hf : commandFault i s = some c) : s.remaining = [] := by simp [State.remaining, hd, h0, hf]

theorem remaining_of_ok (hb : s.cp.busy = true) (hd : decode s.cfg s.cp.cmd = .ok i)
    (hf : s.cp.pos = 0 → commandFault i s = none) : s.remaining = (commandSteps s.cfg i).drop s.cp.pos := by
  simp +contextual [State.remaining, hb, hd, hf]

/-- What a processor with a command in execution has before it: a fault, or the rest of its step list. -/
theorem remaining_cases (hb : s.cp.busy = true) :
    (∃ c, decode s.cfg s.cp.cmd = .error c ∧ s.remaining = []) ∨
    (∃ i c, decode s.cfg s.cp.cmd = .ok i ∧ s.cp.pos = 0 ∧ commandFault i s = some c ∧ s.remaining = []) ∨
    (∃ i, decode s.cfg s.cp.cmd = .ok i ∧ (s.cp.pos = 0 → commandFault i s = none) ∧
      s.remaining = (commandSteps s.cfg i).drop s.cp.pos) := by
  cases hd : decode s.cfg s.cp.cmd with
  | error c => exact .inl ⟨c, rfl, remaining_of_error hd⟩
  | ok i =>
    by_cases hf : s.cp.pos = 0 → commandFault i s = none
    · exact .inr (.inr ⟨i, rfl, hf, remaining_of_ok hb hd hf⟩)
    · push Not at hf
      obtain ⟨h0, hf⟩ := hf
      obtain ⟨c, hc⟩ := Option.ne_none_iff_exists'.mp hf
      exact .inr (.inl ⟨i, c, rfl, h0, hc, remaining_of_fault hd h0 hc⟩)

/-- The checks of a command look at the configuration and the transactions only (R112, R113, R173). -/
theorem commandFault_congr (hcfg : t.cfg = s.cfg) (htxn : t.txn = s.txn) : commandFault i t = commandFault i s := by
  obtain ⟨⟩ := t
  obtain ⟨⟩ := s
  obtain rfl := hcfg
  obtain rfl := htxn
  cases i <;> rfl

theorem remaining_congr (hcfg : t.cfg = s.cfg) (htxn : t.txn = s.txn) (hcp : t.cp = s.cp) :
    t.remaining = s.remaining := by
  simp only [State.remaining, hcfg, hcp, commandFault_congr hcfg htxn]

/-- Nothing comes after a response in a command's step list (R80). -/
theorem CommandShape.tail_eq_nil {n : Nat} (h : CommandShape cfg i qs) (hdrop : qs.drop n = p :: ps)
    (hp : p.isResponse = true) : ps = [] := by
  obtain ⟨body, r, rfl, silent, -⟩ := h.eq_body_append
  rcases Nat.lt_or_ge n body.length with hn | hn
  · rw [List.drop_append_of_le_length hn.le, List.drop_eq_getElem_cons hn, List.cons_append] at hdrop
    obtain ⟨rfl, -⟩ := List.cons.inj hdrop
    exact absurd hp (by simp [silent _ (List.getElem_mem hn)])
  · have hlen := congrArg List.length hdrop
    rw [List.length_drop, List.length_append, List.length_singleton, List.length_cons] at hlen
    exact List.length_eq_zero_iff.mp (by omega)

/-- The next primitive taken, the others remain; a response is the last (R22). -/
theorem remaining_prim (h : s.remaining = p :: ps) : (s.prim p).remaining = ps := by
  cases hb : s.cp.busy with
  | false => simp [remaining_of_idle hb] at h
  | true =>
    rcases remaining_cases hb with ⟨c, -, hnil⟩ | ⟨i, c, -, -, -, hnil⟩ | ⟨i, hd, hf, hsteps⟩
    · simp [hnil] at h
    · simp [hnil] at h
    · rw [hsteps] at h
      cases hr : p.isResponse with
      | true =>
        rw [remaining_of_idle (by rw [(prim_response hr).1]; rfl)]
        exact ((commandSteps_shape s.cfg i).tail_eq_nil h hr).symm
      | false =>
        obtain ⟨hbusy, hcmd, hpos⟩ := prim_cp (s := s) hr
        rw [remaining_of_ok (i := i) (hbusy.trans hb) (by rw [prim_cfg, hcmd, hd]) (by simp [hpos]), prim_cfg, hpos,
          ← List.tail_drop, h, List.tail_cons]

theorem remaining_runPrims (h : s.remaining = ps) : (s.runPrims ps).remaining = [] := by
  induction ps generalizing s with
  | nil => exact h
  | cons p ps ih => exact ih (remaining_prim h)

/-! ### Settling -/

/-- A command in execution is finished by its fault, or by what remains of its step list. -/
theorem finishCommand_cases (hb : s.cp.busy = true) :
    (∃ c, s.remaining = [] ∧ finishCommand s = .next (s.raiseFault c)) ∨
    finishCommand s = .next (s.runPrims s.remaining) := by
  rcases remaining_cases hb with ⟨c, hd, hnil⟩ | ⟨i, c, hd, h0, hf, hnil⟩ | ⟨i, hd, hf, hsteps⟩
  · exact .inl ⟨c, hnil, by simp [finishCommand, hd]⟩
  · exact .inl ⟨c, hnil, by simp [finishCommand, hd, h0, exec_of_fault hf]⟩
  · refine .inr ?_
    by_cases h0 : s.cp.pos = 0
    · simp [finishCommand, hd, h0, hsteps, exec_of_ok (hf h0)]
    · simp [finishCommand, hd, h0, hsteps]

theorem finished_of_next (hb : s.cp.busy = true) (h : finishCommand s = .next t) : s.finished = t := by
  simp [State.finished, hb, h]

/-- The command ends with idle control lines exactly when what remains of its step list leaves them so. -/
theorem settles_iff : s.Settles ↔ (s.runPrims s.remaining).ControlIdle := by
  cases hb : s.cp.busy with
  | false => simp [State.Settles, State.finished, hb, remaining_of_idle hb]
  | true =>
    rcases finishCommand_cases hb with ⟨c, hnil, hfin⟩ | hfin
    · rw [State.Settles, finished_of_next hb hfin, hnil]
      exact Iff.rfl
    · rw [State.Settles, finished_of_next hb hfin]

theorem settles_of_remaining_eq_nil (h : s.remaining = []) : s.Settles ↔ s.ControlIdle := by
  rw [settles_iff, h, runPrims_nil]

theorem settles_raiseFault {c : Cause} (h : s.remaining = []) (hs : s.Settles) : (s.raiseFault c).Settles :=
  (settles_of_remaining_eq_nil (s := s.raiseFault c) rfl).mpr ((settles_of_remaining_eq_nil h).mp hs)

theorem settles_prim (h : s.remaining = p :: ps) (hs : s.Settles) : (s.prim p).Settles := by
  rw [settles_iff, h] at hs
  rw [settles_iff, remaining_prim h]
  exact hs

theorem settles_runPrims_remaining (hs : s.Settles) : (s.runPrims s.remaining).Settles := by
  rw [settles_of_remaining_eq_nil (remaining_runPrims rfl)]
  exact settles_iff.mp hs

/-- A command accepted on idle control lines will leave them idle. -/
theorem settles_accept (hinv : s.Inv) (hb : s.cp.busy = false) (hs : s.Settles) (packet : Packet)
    (rest : List Packet) : (s.accept packet rest).Settles := by
  have hidle : s.ControlIdle := (settles_of_remaining_eq_nil (remaining_of_idle hb)).mp hs
  rcases remaining_cases (s := s.accept packet rest) rfl with
    ⟨c, -, hnil⟩ | ⟨i, c, -, -, -, hnil⟩ | ⟨i, hd, -, hsteps⟩
  · exact (settles_of_remaining_eq_nil hnil).mpr hidle
  · exact (settles_of_remaining_eq_nil hnil).mpr hidle
  · rw [settles_iff, hsteps]
    exact keepsIdle_commandSteps hinv.wf (wf_of_decode hd) (s.accept packet rest) rfl (linesWf_of_inv hinv :) hidle

/-- Two states with the same level of a line have it after the same step list. -/
theorem line_runPrims_congr (hs : Sparse.wf Config.low s.lines) (ht : Sparse.wf Config.low t.lines)
    (h : t.line id = s.line id) : (t.runPrims ps).line id = (s.runPrims ps).line id := by
  induction ps generalizing s t with
  | nil => exact h
  | cons p ps ih =>
    refine ih (linesWf_prim hs p) (linesWf_prim ht p) ?_
    cases p with
    | lineWrite id' l => exact (line_lineWrite ht).trans (h ▸ (line_lineWrite hs).symm)
    | lineWriteAll ls => exact Sparse.get_setAll_congr ht hs h
    | _ => exact h

/-- What leaves the command processor, what its checks look at and the control lines alone keeps that they settle. -/
theorem settles_congr (hs : s.Inv) (ht : t.Inv) (hcfg : t.cfg = s.cfg) (htxn : t.txn = s.txn) (hcp : t.cp = s.cp)
    (hlevel : ∀ id ∈ s.cfg.controlLines, t.line id = s.line id) (h : s.Settles) : t.Settles := by
  rw [settles_iff] at h ⊢
  rw [remaining_congr hcfg htxn hcp]
  refine controlIdle_congr (by rw [runPrims_cfg, runPrims_cfg, hcfg]) (fun id hid => ?_) h
  rw [runPrims_cfg] at hid
  exact line_runPrims_congr (linesWf_of_inv hs) (linesWf_of_inv ht) (hlevel id hid)

/-! ### The agents -/

/-- What a step of the command processor can be, said once: none; a fault entry, with nothing of the command left to do;
the next of the remaining primitives; the acceptance of a packet. -/
theorem cpStep_cases (s : State) :
    cpStep s = s ∨ (∃ c, s.remaining = [] ∧ cpStep s = s.raiseFault c) ∨
    (∃ p ps, s.remaining = p :: ps ∧ cpStep s = s.prim p) ∨
    (∃ packet rest, s.cp.busy = false ∧ cpStep s = s.accept packet rest) := by
  cases hb : s.cp.busy with
  | false =>
    cases hv : s.fault.v with
    | true => exact .inl (by simp [cpStep, hb, hv])
    | false =>
      cases hh : s.host with
      | nil => exact .inl (by simp [cpStep, hb, hv, hh])
      | cons packet rest => exact .inr (.inr (.inr ⟨packet, rest, rfl, by simp [cpStep, hb, hv, hh]⟩))
  | true =>
    rcases remaining_cases hb with ⟨c, hd, hnil⟩ | ⟨i, c, hd, h0, hf, hnil⟩ | ⟨i, hd, hf, hsteps⟩
    · exact .inr (.inl ⟨c, hnil, by simp [cpStep, hb, hd]⟩)
    · exact .inr (.inl ⟨c, hnil, cpStep_of_fault hb hd h0 hf⟩)
    · cases hp : (commandSteps s.cfg i)[s.cp.pos]? with
      | none => exact .inl (cpStep_past_end hb hd hf hp)
      | some p =>
        refine .inr (.inr (.inl ⟨p, (commandSteps s.cfg i).drop (s.cp.pos + 1), ?_, cpStep_of_prim hb hd hf hp⟩))
        obtain ⟨hlt, hget⟩ := List.getElem?_eq_some_iff.mp hp
        rw [hsteps, List.drop_eq_getElem_cons hlt, hget]

theorem settles_cpStep (hinv : s.Inv) (hs : s.Settles) : (cpStep s).Settles := by
  rcases cpStep_cases s with h | ⟨c, hnil, h⟩ | ⟨p, ps, hrem, h⟩ | ⟨packet, rest, hb, h⟩ <;> rw [h]
  · exact hs
  · exact settles_raiseFault hnil hs
  · exact settles_prim hrem hs
  · exact settles_accept hinv hb hs packet rest

theorem settles_finishCommand (hb : s.cp.busy = true) (hs : s.Settles) (h : finishCommand s = .next t) : t.Settles := by
  rcases finishCommand_cases hb with ⟨c, hnil, hfin⟩ | hfin <;> obtain rfl := Host.Outcome.next.inj (hfin.symm.trans h)
  · exact settles_raiseFault hnil hs
  · exact settles_runPrims_remaining hs

theorem settles_commandTurn (hinv : s.Inv) (hs : s.Settles) (h : commandTurn s = .next t) : t.Settles := by
  unfold commandTurn at h
  split at h
  · next hb => exact settles_finishCommand hb hs h
  · next hb =>
    split at h
    · exact Host.Outcome.next.inj h ▸ hs
    · split at h
      · exact Host.Outcome.next.inj h ▸ hs
      · next packet rest _ =>
        exact settles_finishCommand (s := s.accept packet rest) rfl
          (settles_accept hinv (by simpa using hb) hs packet rest) h

/-- The scan engine drives colour lines only (R74, R212). -/
theorem settles_scanStep (hinv : s.Inv) (hs : s.Settles) : (scanStep s).Settles := by
  have same := sameForCommands_scanStep (linesWf_of_inv hinv)
  exact settles_congr hinv (inv_scanStep hinv) same.cfg same.txn same.cp (fun id hid => same.levels id fun hc =>
    Config.not_mem_controlLines_of_mem_scanC hinv.wf hc hid) hs

theorem settles_takeTurn {turn : Turn} (hinv : s.Inv) (hs : s.Settles) (hn : turn.isReset = false)
    (h : takeTurn turn s = .next t) : t.Settles := by
  cases turn with
  | command => exact settles_commandTurn hinv hs h
  | cp => exact Host.Outcome.next.inj h ▸ settles_cpStep hinv hs
  | scan => exact Host.Outcome.next.inj h ▸ settles_scanStep hinv hs
  | env levels =>
    exact Host.Outcome.next.inj h ▸ settles_congr hinv (inv_envStep hinv levels) rfl rfl rfl (fun _ _ => rfl) hs
  | reset cfg d => cases hn

/-- Settles O56: what remains of the command in execution leaves the control lines idle; the processor takes it from the
front, a new command makes whole pulses only, and no other agent drives a control line. -/
theorem controlLinesSettle : Obligations.ControlLinesSettle := by
  refine ⟨fun cfg d wf => (settles_of_remaining_eq_nil rfl).mpr (controlIdle_resetWith wf d),
    fun s t hinv hs h => ?_, fun s hs hb => (settles_of_remaining_eq_nil (remaining_of_idle hb)).mp hs⟩
  rcases noReset_or_eq_reset h with hn | ⟨cfg, d, rfl⟩
  · have begun : s.begun.Settles :=
      settles_congr hinv (inv_begun hinv) rfl rfl rfl (fun _ _ => rfl) hs
    exact settles_takeTurn (inv_begun hinv) begun hn h
  · have wf : cfg.WF := (everyStepKeepsTheInvariant s _ hinv h).wf
    exact (settles_of_remaining_eq_nil rfl).mpr (controlIdle_resetWith wf d)

end Sys2Proof.Machine
end

section
/-! SUPPORT. What a control line's edges do to the devices: the rising edge of a clock shifts, that of a latch commits, a
clear line going active empties, and the way back to the idle level does nothing (spec/41_shift_register.md R131 to
R134). -/

namespace Sys2Proof

/-! ### The lines a device is wired to -/

/-- Each line of the wiring is one of its role in the configuration (R130). -/
structure Wiring.LinesOf (cfg : Config) (w : Wiring) : Prop where
  ser   : w.ser ∈ cfg.serLines
  clk   : w.clk ∈ cfg.clkLines
  latch : ∀ L, w.latch = some L → L ∈ cfg.latchLines
  clear : ∀ p, w.clear = some p → p ∈ cfg.clearLines

variable {cfg : Config}

/-- The latch line of a chain's device is its own or that of the group it names (R130). -/
theorem Config.latch_mem_of_chainWiring {c : Chain} {L : LineId} (h : c ∈ cfg.chains)
    (hL : (c.wiring cfg).latch = some L) : L ∈ cfg.latchLines := by
  cases hc : c.latch with
  | some M =>
    obtain rfl : M = L := by simpa [Chain.wiring, hc] using hL
    exact latch_mem_of_chain h hc
  | none =>
    simp only [Chain.wiring, hc, Option.bind_eq_some_iff] at hL
    obtain ⟨gr, ⟨g, -, hgr⟩, hlatch⟩ := hL
    exact latch_mem_of_group (List.mem_of_getElem? hgr) hlatch

theorem Config.linesOf_chainWiring {c : Chain} (wf : cfg.WF) (h : c ∈ cfg.chains) :
    (c.wiring cfg).LinesOf cfg where
  ser := ser_mem_of_chain h
  clk := clk_mem_of_chain wf h
  latch _ := latch_mem_of_chainWiring h
  clear _ := clear_mem_of_chainWiring h

theorem Config.linesOf_laneWiring {b : Bank} {ser : LineId} (wf : cfg.WF) (h : b ∈ cfg.banks) (hser : ser ∈ b.ser) :
    (b.laneWiring cfg ser).LinesOf cfg where
  ser := ser_mem_of_bank h hser
  clk := by
    obtain ⟨⟨-, -, -, -, -, -, -, -, hgroup⟩, -⟩ := wf
    exact clk_mem_of_group (groupAt_mem (hgroup b h))
  latch _ := latch_groupAt_mem
  clear _ := clear_groupAt_mem

theorem Config.linesOf_wiring {d : DevId} {w : Wiring} (wf : cfg.WF) (h : cfg.wiring d = some w) : w.LinesOf cfg := by
  cases d with
  | chain u =>
    obtain ⟨c, hc, rfl⟩ := Option.map_eq_some_iff.mp h
    exact linesOf_chainWiring wf (List.mem_of_getElem? hc)
  | lane k l =>
    obtain ⟨b, hb, hl⟩ := Option.bind_eq_some_iff.mp h
    obtain ⟨ser, hser, rfl⟩ := Option.map_eq_some_iff.mp hl
    exact linesOf_laneWiring wf (List.mem_of_getElem? hb) (List.mem_of_getElem? hser)

namespace Machine

/-! ### Edges -/

section

variable {w : Wiring} {level : LineId → Level} {id clk L : LineId} {l old new : Level}

/-- A data line moves no device (R131). -/
theorem reactionTo_dataLine (h : w.LinesOf cfg) (hid : id ∉ cfg.controlLines) :
    reactionTo w level id old new = none := by
  have apart : ∀ p ∈ cfg.activeLevels, p.1 ≠ id := fun p hp hpid =>
    hid (hpid ▸ Config.mem_controlLines_of_active hp)
  refine reactionTo_other (apart _ (Config.active_of_mem_clkLines h.clk)).symm (fun hl => ?_) fun act hk => ?_
  · exact apart _ (Config.active_of_mem_latchLines (h.latch id hl)) rfl
  · exact apart _ (Config.active_of_mem_clearLines (h.clear _ hk)) rfl

/-- A control line's way back to its idle level moves no device: devices look at the edge to the active level only. -/
theorem reactionTo_to_idle (wf : cfg.WF) (h : w.LinesOf cfg) (hL : (L, l) ∈ cfg.activeLevels) :
    reactionTo w level L l (!l) = none := by
  have active : ∀ m, (L, m) ∈ cfg.activeLevels → m = l := fun m hm =>
    congrArg Prod.snd (Config.eq_of_active wf hm hL rfl)
  cases hr : reactionTo w level L l (!l) with
  | none => rfl
  | some r =>
    rcases reactionTo_cases hr with ⟨-, rfl, ho, -⟩ | ⟨-, rfl, ho, -⟩ | ⟨-, hl, ho, -⟩ | ⟨-, hk, -⟩
    · exact absurd (active true (Config.active_of_mem_clkLines h.clk)) (by simp [ho])
    · exact absurd (active true (Config.active_of_mem_clkLines h.clk)) (by simp [ho])
    · exact absurd (active true (Config.active_of_mem_latchLines (h.latch L hl))) (by simp [ho])
    · exact absurd (active (!l) (Config.active_of_mem_clearLines (h.clear _ hk))) (by simp)

/-- A rising clock moves the devices on that clock only (R132). -/
theorem reactionTo_rise_of_ne (wf : cfg.WF) (h : w.LinesOf cfg) (hclk : clk ∈ cfg.clkLines) (hne : w.clk ≠ clk) :
    reactionTo w level clk old new = none :=
  reactionTo_other hne.symm (fun hl => Config.latch_ne_clk wf (h.latch clk hl) hclk rfl)
    fun _ hk => Config.clear_ne_clk wf (h.clear _ hk) hclk rfl

/-- A rising latch line commits the devices wired to it and moves no other (R133). -/
theorem reactionTo_latch (wf : cfg.WF) (h : w.LinesOf cfg) (hL : L ∈ cfg.latchLines) :
    reactionTo w level L false true = if w.latch = some L then some .latch else none := by
  have hclk : L ≠ w.clk := Config.latch_ne_clk wf hL h.clk
  by_cases hl : w.latch = some L
  · rw [if_pos hl, reactionTo_latch_rise hl hclk]
  · rw [if_neg hl, reactionTo_other hclk hl fun _ hk => Config.clear_ne_latch wf (h.clear _ hk) hL rfl]

/-- A clear line going active empties the devices wired to it and moves no other (R134). -/
theorem reactionTo_clear (wf : cfg.WF) (h : w.LinesOf cfg) (hL : (L, l) ∈ cfg.clearLines) :
    reactionTo w level L (!l) l = if w.clear.map Prod.fst = some L then some .clear else none := by
  have hclk : L ≠ w.clk := Config.clear_ne_clk wf hL h.clk
  have hlatch : w.latch ≠ some L := fun hl => Config.clear_ne_latch wf hL (h.latch L hl) rfl
  by_cases hk : w.clear.map Prod.fst = some L
  · obtain ⟨p, hp, rfl⟩ := Option.map_eq_some_iff.mp hk
    have hpl : p = (p.1, l) := Config.eq_of_active wf (Config.active_of_mem_clearLines (h.clear p hp))
      (Config.active_of_mem_clearLines hL) rfl
    rw [if_pos hk, reactionTo, if_neg (by simp), if_neg hclk, if_neg hlatch, if_pos (hp.trans (congrArg some hpl))]
  · rw [if_neg hk, reactionTo_other hclk hlatch fun act hact => hk (by simp [hact])]

end

/-! ### Devices after an edge -/

variable {s : State} {d : Device} {id clk L : LineId} {l old new : Level}

theorem deviceAfter_of_none (h : ∀ w, s.cfg.wiring d.id = some w → reactionTo w s.line id old new = none) :
    s.deviceAfter id old new d = d := by
  unfold State.deviceAfter
  split
  · rfl
  · next w hw => rw [h w hw]

theorem deviceAfter_dataLine (wf : s.cfg.WF) (hid : id ∉ s.cfg.controlLines) : s.deviceAfter id old new d = d :=
  deviceAfter_of_none fun _ hw => reactionTo_dataLine (Config.linesOf_wiring wf hw) hid

theorem deviceAfter_to_idle (wf : s.cfg.WF) (hL : (L, l) ∈ s.cfg.activeLevels) : s.deviceAfter L l (!l) d = d :=
  deviceAfter_of_none fun _ hw => reactionTo_to_idle wf (Config.linesOf_wiring wf hw) hL

/-- While the control lines are idle the clear line of a device is inactive, also when a clock has risen (R132, R138). -/
theorem clearActive_putLine_clk (hinv : s.Inv) (hidle : s.ControlIdle) (hclk : clk ∈ s.cfg.clkLines) {w : Wiring}
    (h : w.LinesOf s.cfg) : clearActive w (s.putLine clk l).line = false := by
  obtain ⟨-, -, hclear⟩ := hidle
  unfold clearActive
  split
  · next M act hk =>
    have hM := h.clear _ hk
    rw [line_putLine (linesWf_of_inv hinv), if_neg (Config.clear_ne_clk hinv.wf hM hclk), hclear _ hM]
    simp
  · rfl

/-- A rising clock shifts each device on it by the level of its serial line (R132). -/
theorem deviceAfter_rise (hinv : s.Inv) (hidle : s.ControlIdle) (hclk : clk ∈ s.cfg.clkLines) :
    (s.putLine clk true).deviceAfter clk false true d = s.loaded clk 1 (fun id => (s.line id).toNat) d := by
  unfold State.deviceAfter State.loaded
  rw [putLine_cfg]
  cases hw : s.cfg.wiring d.id with
  | none => rfl
  | some w =>
    have lines := Config.linesOf_wiring hinv.wf hw
    by_cases hc : w.clk = clk
    · subst hc
      have hser : w.ser ≠ w.clk := Config.ser_ne_clk hinv.wf lines.ser hclk
      simp only [reactionTo_clk_rise (clearActive_putLine_clk hinv hidle hclk lines), Device.apply, if_true,
        line_putLine (linesWf_of_inv hinv), if_neg hser, pow_one, Nat.mul_comm d.sr 2]
    · simp only [reactionTo_rise_of_ne hinv.wf lines hclk hc, if_neg hc]

/-- A rising latch line commits (R133). -/
theorem deviceAfter_latch (wf : s.cfg.WF) (hL : L ∈ s.cfg.latchLines) :
    (s.putLine L true).deviceAfter L false true d = s.committed L d := by
  unfold State.deviceAfter State.committed
  rw [putLine_cfg]
  cases hw : s.cfg.wiring d.id with
  | none => rfl
  | some w =>
    simp only [reactionTo_latch wf (Config.linesOf_wiring wf hw) hL]
    by_cases hl : w.latch = some L <;> simp [hl, Device.apply]

/-- A clear line going active empties (R134). -/
theorem deviceAfter_clear (wf : s.cfg.WF) (hL : (L, l) ∈ s.cfg.clearLines) :
    (s.putLine L l).deviceAfter L (!l) l d = s.emptied L d := by
  unfold State.deviceAfter State.emptied
  rw [putLine_cfg]
  cases hw : s.cfg.wiring d.id with
  | none => rfl
  | some w =>
    simp only [reactionTo_clear wf (Config.linesOf_wiring wf hw) hL]
    by_cases hk : w.clear.map Prod.fst = some L <;> simp [hk, Device.apply]

end Machine

end Sys2Proof
end

section
/-! SUPPORT. Runs of line steps: what a command's line steps leave, composed step by step. The pulse of a clock, a latch or
a clear is a run of two steps; the latch and clear commands are one pulse, or the diagnostic where the line is absent
(spec/41_shift_register.md R139 to R146). -/

namespace Sys2Proof.Machine

variable {s t u : State} {clk L : LineId} {l : Level} {k j : Nat} {f g : Device → Device}
  {level level' : LineId → Level}

/-- t is what k line steps of a command leave of s: each device changed by f, each line at its level, a group of events a
step, and nothing else moved but the processor's place in its step list. -/
structure LineRun (k : Nat) (f : Device → Device) (level : LineId → Level) (s t : State) : Prop where
  eq     : t = { s with lines := t.lines, cp := t.cp, trace := t.trace, devs := s.devs.map f }
  grown  : ∃ groups : List (List Event), groups.length = k ∧ t.trace = groups ++ s.trace
  levels : ∀ id, t.line id = level id

theorem LineRun.cfg_eq (h : LineRun k f level s t) : t.cfg = s.cfg := by rw [h.eq]

theorem LineRun.readCell_eq (h : LineRun k f level s t) (a : Nat) : t.readCell a = s.readCell a :=
  readCell_congr h.cfg_eq (by rw [h.eq])

theorem LineRun.trans (h : LineRun k f level s t) (h' : LineRun j g level' t u) :
    LineRun (k + j) (g ∘ f) level' s u where
  eq := by
    have hu := h'.eq
    rw [h.eq] at hu
    simpa using hu
  grown := by
    obtain ⟨gs, hk, hgs⟩ := h.grown
    obtain ⟨gs', hj, hgs'⟩ := h'.grown
    exact ⟨gs' ++ gs, by simp [hk, hj, Nat.add_comm], by rw [hgs', hgs, List.append_assoc]⟩
  levels := h'.levels

theorem LineRun.congr (h : LineRun k f level s t) (hf : ∀ d ∈ s.devs, f d = g d) (hl : ∀ id, level id = level' id) :
    LineRun k g level' s t where
  eq := List.map_congr_left hf ▸ h.eq
  grown := h.grown
  levels id := (h.levels id).trans (hl id)

theorem lineRun_lineWrite (h : Sparse.wf Config.low s.lines) :
    LineRun 1 ((s.putLine L l).deviceAfter L (s.line L) l) (fun id => if id = L then l else s.line id) s
      (s.prim (.lineWrite L l)) :=
  ⟨rfl, ⟨[_], rfl, rfl⟩, fun _ => line_lineWrite h⟩

/-- A pulse is its first edge: the way back moves no device and returns the line. -/
theorem lineRun_pulse (hinv : s.Inv) (hidle : s.ControlIdle) (hL : (L, l) ∈ s.cfg.activeLevels)
    (hf : ∀ d ∈ s.devs, (s.putLine L l).deviceAfter L (!l) l d = f d) :
    LineRun 2 f s.line s (s.runPrims (pulse L l)) := by
  have hlines := linesWf_of_inv hinv
  have before : s.line L = !l := controlIdle_iff.mp hidle _ hL
  have between : (s.prim (.lineWrite L l)).line L = l := (line_lineWrite hlines).trans (if_pos rfl)
  have there := lineRun_lineWrite (L := L) (l := l) hlines
  have back := lineRun_lineWrite (L := L) (l := !l) (linesWf_prim hlines (.lineWrite L l))
  refine (there.trans back).congr (fun d hd => ?_) fun id => ?_
  · rw [Function.comp_apply, between, before, hf d hd]
    exact deviceAfter_to_idle (s := (s.prim (.lineWrite L l)).putLine L (!l)) hinv.wf hL
  · exact ((there.trans back).levels id).symm.trans (line_runPrims_pulse hlines before)

/-- A tick shifts the devices on the clock by the levels of their serial lines (R132). -/
theorem lineRun_tick (hinv : s.Inv) (hidle : s.ControlIdle) (hclk : clk ∈ s.cfg.clkLines) :
    LineRun 2 (s.loaded clk 1 fun id => (s.line id).toNat) s.line s (s.runPrims (tickSteps clk)) :=
  lineRun_pulse hinv hidle (Config.active_of_mem_clkLines hclk) fun _ _ => deviceAfter_rise hinv hidle hclk

/-- A latch pulse commits the devices on the line (R133). -/
theorem lineRun_latch (hinv : s.Inv) (hidle : s.ControlIdle) (hL : L ∈ s.cfg.latchLines) :
    LineRun 2 (s.committed L) s.line s (s.runPrims (latchSteps (some L))) :=
  lineRun_pulse hinv hidle (Config.active_of_mem_latchLines hL) fun _ _ => deviceAfter_latch hinv.wf hL

/-- A clear pulse empties the devices on the line (R134). -/
theorem lineRun_clear (hinv : s.Inv) (hidle : s.ControlIdle) (hL : (L, l) ∈ s.cfg.clearLines) :
    LineRun 2 (s.emptied L) s.line s (s.runPrims (clearSteps (some (L, l)))) :=
  lineRun_pulse hinv hidle (Config.active_of_mem_clearLines hL) fun _ _ => deviceAfter_clear hinv.wf hL

/-! ### Commands that are one run of line steps and a response -/

/-- A command whose checks pass takes the body of its step list and responds with nothing. -/
theorem exec_of_body {i : Instr} {body : List Prim} (hf : commandFault i s = none)
    (hsteps : commandSteps s.cfg i = body ++ [.respond []]) : exec i s = .next ((s.runPrims body).respond []) := by
  rw [exec_of_ok hf, hsteps, runPrims_append]
  rfl

/-- The state after the response differs from that before the run in lines, devices and trace only. -/
theorem LineRun.respond_eq (h : LineRun k f level s t) (bs : List Byte) :
    t.respond bs = { s with
      lines := (t.respond bs).lines, cp := Cp.idle, trace := (t.respond bs).trace, devs := s.devs.map f } :=
  congrArg (State.respond · bs) h.eq

theorem LineRun.respond_trace_length (h : LineRun k f level s t) (bs : List Byte) :
    (t.respond bs).trace.length = s.trace.length + (k + 1) := by
  obtain ⟨gs, hk, hgs⟩ := h.grown
  simp [hgs, hk]
  omega

/-- What a command that is one run of line steps and a response answers. -/
theorem LineRun.exec {i : Instr} {body : List Prim} (h : LineRun k f level s (s.runPrims body))
    (hf : commandFault i s = none) (hsteps : commandSteps s.cfg i = body ++ [.respond []]) :
    ∃ t, exec i s = .next t ∧
      t = { s with lines := t.lines, cp := Cp.idle, trace := t.trace, devs := s.devs.map f } ∧
      (∀ id, t.line id = level id) ∧ (∀ a, t.readCell a = s.readCell a) ∧
      t.trace.length = s.trace.length + (k + 1) :=
  ⟨_, exec_of_body hf hsteps, h.respond_eq [], h.levels, h.readCell_eq, h.respond_trace_length []⟩

/-- Settles O25: the pulse commits at its rising edge, and the line falls back without effect. -/
theorem latchPulseCommits : Obligations.LatchPulseCommits := by
  intro s u L hinv hidle
  refine ⟨fun hu hL => ?_, fun hu hL => ?_⟩
  · have run := lineRun_latch hinv hidle (Config.latch_mem_of_chain (Config.chainAt_mem hu) hL)
    exact run.exec (unitCheck_eq_none.mpr hu) (congrArg (latchSteps · ++ _) hL)
  · have run := lineRun_latch hinv hidle (Config.latch_groupAt_mem hL)
    exact run.exec (unitCheck_eq_none.mpr hu) (congrArg (latchSteps · ++ _) hL)

/-- Settles O26: the pulse empties when the line goes active, and the line goes back without effect. -/
theorem clearPulseEmpties : Obligations.ClearPulseEmpties := by
  intro s u L hinv hidle
  refine ⟨fun hu hL => ?_, fun hu hL => ?_⟩
  · have hline : (s.cfg.chainAt u).clearLine = some (L, (s.cfg.chainAt u).clrAct) := by simp [Chain.clearLine, hL]
    have run := lineRun_clear hinv hidle (Config.clear_mem_of_chain (Config.chainAt_mem hu) hline)
    exact run.exec (unitCheck_eq_none.mpr hu) (congrArg (clearSteps · ++ _) hline)
  · have hline : (s.cfg.groupAt u.toNat).clearLine = some (L, (s.cfg.groupAt u.toNat).clrAct) := by
      simp [ControlGroup.clearLine, hL]
    have run := lineRun_clear hinv hidle (Config.clear_groupAt_mem hline)
    exact run.exec (unitCheck_eq_none.mpr hu) (congrArg (clearSteps · ++ _) hline)

/-! ### Lines that a component does not own -/

theorem exec_of_noLatch {i : Instr} (hf : commandFault i s = none)
    (hsteps : commandSteps s.cfg i = latchSteps none ++ [.respond []]) : exec i s = .next { s with
      diag := { s.diag with noLatch := true }, cp := Cp.idle, trace := [.resp []] :: [.diag .noLatch] :: s.trace } :=
  exec_of_body hf hsteps

theorem exec_of_noClear {i : Instr} (hf : commandFault i s = none)
    (hsteps : commandSteps s.cfg i = clearSteps none ++ [.respond []]) : exec i s = .next { s with
      diag := { s.diag with noClear := true }, cp := Cp.idle, trace := [.resp []] :: [.diag .noClear] :: s.trace } :=
  exec_of_body hf hsteps

/-- Settles O15: without the line the step list is the diagnostic and the response. -/
theorem absentLineIsANoOpWithDiagnostic : Obligations.AbsentLineIsANoOpWithDiagnostic := by
  intro s u
  refine ⟨fun hu hL => ?_, fun hu hL => ?_, fun hu hL => ?_, fun hu hL => ?_⟩
  · exact exec_of_noLatch (unitCheck_eq_none.mpr hu) (congrArg (latchSteps · ++ _) hL)
  · have hline : (s.cfg.chainAt u).clearLine = none := by simp [Chain.clearLine, hL]
    exact exec_of_noClear (unitCheck_eq_none.mpr hu) (congrArg (clearSteps · ++ _) hline)
  · exact exec_of_noLatch (unitCheck_eq_none.mpr hu) (congrArg (latchSteps · ++ _) hL)
  · have hline : (s.cfg.groupAt u.toNat).clearLine = none := by simp [ControlGroup.clearLine, hL]
    exact exec_of_noClear (unitCheck_eq_none.mpr hu) (congrArg (clearSteps · ++ _) hline)

end Sys2Proof.Machine
end

section
/-! SUPPORT. Numbers sent bit by bit (spec/20_memory.md R54, spec/41_shift_register.md R135): the bits of a frame, in the
order they are sent, make the frame's big-endian value, and its bytes are those of that number from the far end. -/

namespace Sys2Proof

variable {f g : Nat → Level} {b : Byte} {frame : List Byte} {k m : Nat}

/-- The number that the first k bits sent make, the first the most significant. -/
def bitsSent (f : Nat → Level) : Nat → Nat
  | 0 => 0
  | k + 1 => 2 * bitsSent f k + (f k).toNat

/-- Bits sent on a line that does not move (R273). -/
theorem bitsSent_const (l : Level) (k : Nat) : bitsSent (fun _ => l) k = if l then 2 ^ k - 1 else 0 := by
  induction k with
  | zero => simp [bitsSent]
  | succ k ih =>
    have hpos : 0 < 2 ^ k := by positivity
    rw [bitsSent, ih, pow_succ]
    cases l <;> simp
    omega

theorem bitsSent_add (f : Nat → Level) (m k : Nat) :
    bitsSent f (m + k) = bitsSent f m * 2 ^ k + bitsSent (fun i => f (m + i)) k := by
  induction k with
  | zero => simp [bitsSent]
  | succ k ih =>
    rw [← Nat.add_assoc, bitsSent, bitsSent, ih]
    ring

/-- The bits of a byte, most significant first, make the byte (R140). -/
theorem bitsSent_byte (b : Byte) : bitsSent (fun i => b.getLsbD (7 - i)) 8 = b.toNat := by
  have leading : ∀ k, k ≤ 8 → bitsSent (fun i => b.getLsbD (7 - i)) k = b.toNat / 2 ^ (8 - k) := fun k hk => by
    induction k with
    | zero => exact (Nat.div_eq_of_lt b.isLt).symm
    | succ k ih =>
      have hpow : 2 ^ (8 - k) = 2 ^ (7 - k) * 2 := by rw [← pow_succ]; congr 1; omega
      rw [bitsSent, ih (by omega), hpow, ← Nat.div_div_eq_div_mul, BitVec.getLsbD, Nat.toNat_testBit,
        show 8 - (k + 1) = 7 - k by omega]
      omega
  simpa using leading 8 le_rfl

/-! ### Frames -/

theorem txBit_cons_add (i : Nat) : txBit (b :: frame) (8 + i) = txBit frame i := by
  simp [txBit, show (8 + i) / 8 = i / 8 + 1 by omega]

theorem frameValue_concat : frameValue (frame ++ [b]) = frameValue frame * 256 + b.toNat := by
  simp [frameValue]

theorem frameValue_cons : frameValue (b :: frame) = b.toNat * 256 ^ frame.length + frameValue frame := by
  induction frame using List.reverseRecOn with
  | nil => simp [frameValue]
  | append_singleton frame c ih =>
    rw [← List.cons_append, frameValue_concat, ih, frameValue_concat, List.length_append, List.length_singleton]
    ring

/-- The bits of a frame in the order they are sent make its big-endian value (R54, R135). -/
theorem bitsSent_txBit (frame : List Byte) : bitsSent (txBit frame) (8 * frame.length) = frameValue frame := by
  induction frame with
  | nil => rfl
  | cons b frame ih =>
    have first : bitsSent (txBit (b :: frame)) 8 = b.toNat := bitsSent_byte b
    rw [List.length_cons, Nat.mul_succ, Nat.add_comm, bitsSent_add, first, frameValue_cons, pow_mul]
    simp only [txBit_cons_add, ih]
    rfl

/-- A frame's value is that of its bytes read from the far end, the last the least significant (R82, R135). -/
theorem frameValue_eq_natLE (frame : List Byte) : frameValue frame = natLE frame.reverse := by
  induction frame using List.reverseRecOn with
  | nil => rfl
  | append_singleton frame b ih => rw [frameValue_concat, ih, List.reverse_concat, natLE]; omega

theorem frameValue_lt (frame : List Byte) : frameValue frame < 2 ^ (8 * frame.length) := by
  rw [frameValue_eq_natLE, pow_mul, ← List.length_reverse]
  exact natLE_lt frame.reverse

/-- Byte i of a frame's value is the i-th byte from the frame's end (R135, R148). -/
theorem byte_frameValue {j : Nat} (hj : j < frame.length) :
    BitVec.ofNat 8 (frameValue frame / 256 ^ (frame.length - 1 - j)) = frame.getD j 0 := by
  have hi : frame.length - 1 - j < frame.reverse.length := by rw [List.length_reverse]; omega
  calc BitVec.ofNat 8 (frameValue frame / 256 ^ (frame.length - 1 - j))
      = (bytesLE frame.reverse.length (natLE frame.reverse)).getD (frame.length - 1 - j) 0 := by
        rw [frameValue_eq_natLE, bytesLE, List.getD_eq_getElem _ _ (by simpa using hi)]
        simp
    _ = frame.reverse.getD (frame.length - 1 - j) 0 := by rw [bytesLE_natLE]
    _ = frame.getD j 0 := by
        rw [List.getD_eq_getElem _ _ hi, List.getElem_reverse, List.getD_eq_getElem _ _ hj]
        congr 1
        omega

end Sys2Proof
end

section
/-! SUPPORT. Shifts: ticks of a clock with a bit on the serial lines before each (spec/41_shift_register.md R140, R141).
After k of them every device on the clock has taken in what its own serial line sent, whoever drove it. -/

namespace Sys2Proof.Machine

variable {s t : State} {d : Device} {clk : LineId} {j k : Nat} {a b : LineId → Nat}

/-! ### What the devices have taken in -/

theorem loaded_congr (h : t.cfg = s.cfg) : t.loaded clk k a d = s.loaded clk k a d := by
  simp only [State.loaded, h]

theorem committed_congr (h : t.cfg = s.cfg) (L : LineId) : t.committed L d = s.committed L d := by
  simp only [State.committed, h]

/-- A device of the block holds no more bits than its stages (R35). -/
theorem loaded_zero (hinv : s.Inv) (hd : d ∈ s.devs) : s.loaded clk 0 (fun _ => 0) d = d := by
  obtain ⟨-, hfit⟩ := hinv.devices
  unfold State.loaded
  split
  · rfl
  · next w hw =>
    obtain ⟨hsr, -⟩ := hfit d hd w (by simp [hw])
    simp [Nat.mod_eq_of_lt hsr]

/-- Bits taken in one after another are taken in as one number. -/
theorem loaded_loaded : s.loaded clk j b (s.loaded clk k a d) = s.loaded clk (k + j) (fun id => a id * 2 ^ j + b id) d := by
  cases hw : s.cfg.wiring d.id with
  | none => simp [State.loaded, hw]
  | some w =>
    by_cases hc : w.clk = clk
    · have cut : ((d.sr * 2 ^ k + a w.ser) % 2 ^ (8 * w.n) * 2 ^ j + b w.ser) % 2 ^ (8 * w.n) =
          (d.sr * 2 ^ (k + j) + (a w.ser * 2 ^ j + b w.ser)) % 2 ^ (8 * w.n) := by
        rw [show d.sr * 2 ^ (k + j) + (a w.ser * 2 ^ j + b w.ser) = (d.sr * 2 ^ k + a w.ser) * 2 ^ j + b w.ser by ring]
        exact ((Nat.mod_modEq _ _).mul_right _).add_right _
      simp [State.loaded, hw, hc, cut]
    · simp [State.loaded, hw, hc]

/-! ### Rounds of a bit and a tick -/

/-- A schedule of primitives, one a tick, each driving serial lines only: after the i-th from any state in which the other
lines stand as in s, every line is at its level of that tick. -/
structure SendsBits (s : State) (ids : List LineId) (drive : Nat → Prim) (level : Nat → LineId → Level) : Prop where
  ser    : ids ⊆ s.cfg.serLines
  drives : ∀ i, (drive i).isDrive = true
  others : ∀ i, ∀ id ∉ ids, level i id = s.line id
  run    : ∀ (i : Nat) (t : State), t.Inv → t.cfg = s.cfg → (∀ id ∉ ids, t.line id = s.line id) →
    LineRun 1 id (level i) t (t.prim (drive i))

/-- The step list of k rounds: a bit on the serial lines, and a tick. -/
def roundSteps (clk : LineId) (drive : Nat → Prim) (k : Nat) : List Prim :=
  (List.range k).flatMap fun i => drive i :: tickSteps clk

theorem roundSteps_succ (clk : LineId) (drive : Nat → Prim) (k : Nat) :
    roundSteps clk drive (k + 1) = roundSteps clk drive k ++ drive k :: tickSteps clk := by
  simp [roundSteps, List.range_succ]

variable {ids : List LineId} {drive : Nat → Prim} {level : Nat → LineId → Level}

theorem inv_prim_of_isDrive {p : Prim} (hinv : s.Inv) (h : p.isDrive = true) : (s.prim p).Inv :=
  inv_prim hinv (permitted_of_isDrive h)

theorem inv_runPrims_of_isDrive {ps : List Prim} (hinv : s.Inv) (h : ∀ p ∈ ps, p.isDrive = true) :
    (s.runPrims ps).Inv :=
  inv_stepClosed.runPrims (fun p hp _ => permitted_of_isDrive (h p hp)) hinv

theorem SendsBits.isDrive_of_mem (h : SendsBits s ids drive level) {p : Prim} (hp : p ∈ roundSteps clk drive k) :
    p.isDrive = true := by
  obtain ⟨i, -, hi⟩ := List.mem_flatMap.mp hp
  rcases List.mem_cons.mp hi with rfl | htick
  · exact h.drives i
  · exact List.all_eq_true.mp (rfl : (tickSteps clk).all Prim.isDrive = true) p htick

/-- One round: the bit moves no device, and the tick shifts in the levels of this round. -/
theorem SendsBits.lineRun_round (h : SendsBits s ids drive level) (hidle : s.ControlIdle) (hclk : clk ∈ s.cfg.clkLines)
    (hinv : t.Inv) (hcfg : t.cfg = s.cfg) (hothers : ∀ id ∉ ids, t.line id = s.line id) (i : Nat) :
    LineRun 3 (s.loaded clk 1 fun id => (level i id).toNat) (level i) t (t.runPrims (drive i :: tickSteps clk)) := by
  have bit := h.run i t hinv hcfg hothers
  have hidle' : (t.prim (drive i)).ControlIdle := by
    refine controlIdle_congr (bit.cfg_eq.trans hcfg) (fun id hid => ?_) hidle
    have hid' : id ∉ ids := fun hmem => Config.not_mem_controlLines_of_mem_serLines (hcfg ▸ hinv.wf) (h.ser hmem) hid
    rw [bit.levels, h.others i id hid']
  have tick := lineRun_tick (inv_prim_of_isDrive hinv (h.drives i)) hidle' (clk := clk) (by rwa [bit.cfg_eq, hcfg])
  refine (bit.trans tick).congr (fun d _ => ?_) bit.levels
  simp only [Function.comp_apply, id_eq, loaded_congr (bit.cfg_eq.trans hcfg), bit.levels]

/-- k rounds: every device on the clock takes in the k bits its serial line had, the first the most significant. -/
theorem SendsBits.lineRun_rounds (h : SendsBits s ids drive level) (hinv : s.Inv) (hidle : s.ControlIdle)
    (hclk : clk ∈ s.cfg.clkLines) (k : Nat) :
    LineRun (3 * k) (s.loaded clk k fun id => bitsSent (level · id) k)
      (fun id => if k = 0 then s.line id else level (k - 1) id) s (s.runPrims (roundSteps clk drive k)) := by
  induction k with
  | zero =>
    refine ⟨?_, ⟨[], rfl, rfl⟩, fun _ => rfl⟩
    have hdevs : s.devs.map (s.loaded clk 0 fun _ => 0) = s.devs :=
      (List.map_congr_left fun d hd => loaded_zero hinv hd).trans s.devs.map_id'
    simp only [bitsSent, hdevs]
    rfl
  | succ k ih =>
    have others : ∀ id ∉ ids, (s.runPrims (roundSteps clk drive k)).line id = s.line id := fun id hid => by
      rw [ih.levels]
      split
      · rfl
      · exact h.others _ id hid
    have hinv' := inv_runPrims_of_isDrive hinv fun p hp => h.isDrive_of_mem (clk := clk) (k := k) hp
    have round := h.lineRun_round hidle hclk hinv' ih.cfg_eq others k
    rw [roundSteps_succ, runPrims_append]
    refine (ih.trans round).congr (fun d _ => ?_) fun id => by simp
    simp only [Function.comp_apply, loaded_loaded, bitsSent, pow_one, Nat.mul_comm 2]

/-! ### The shift of a chain -/

theorem shiftFrameSteps_eq_roundSteps (ser clk : LineId) (frame : List Byte) :
    shiftFrameSteps ser clk frame = roundSteps clk (fun i => .lineWrite ser (txBit frame i)) (8 * frame.length) := by
  induction frame with
  | nil => rfl
  | cons b frame ih =>
    have first : shiftByteSteps ser clk b = roundSteps clk (fun i => .lineWrite ser (txBit (b :: frame) i)) 8 := rfl
    rw [List.length_cons, Nat.mul_succ, Nat.add_comm, roundSteps, List.range_add, List.flatMap_append, List.flatMap_map]
    simp only [txBit_cons_add]
    rw [shiftFrameSteps, List.flatMap_cons, first]
    exact congrArg _ ih

/-- A chain's shift drives its own serial line, and no other. -/
theorem sendsBits_chain {c : Chain} (hc : c ∈ s.cfg.chains) (frame : List Byte) :
    SendsBits s [c.ser] (fun i => .lineWrite c.ser (txBit frame i))
      fun i id => if id = c.ser then txBit frame i else s.line id where
  ser := by simpa using Config.ser_mem_of_chain hc
  drives _ := rfl
  others i id hid := if_neg (by simpa using hid)
  run i t ht hcfg hothers := by
    have data : c.ser ∉ t.cfg.controlLines :=
      Config.not_mem_controlLines_of_mem_serLines ht.wf (hcfg ▸ Config.ser_mem_of_chain hc)
    refine (lineRun_lineWrite (linesWf_of_inv ht)).congr (fun d _ => ?_) fun id => ?_
    · exact deviceAfter_dataLine (s := t.putLine c.ser _) ht.wf data
    · split
      · rfl
      · next hid => exact hothers id (by simpa using hid)

/-- What a chain's serial line sends in the shift of a frame of n bytes, and the other serial lines beside it (R141,
R273). -/
def State.chainSent (s : State) (c : Chain) (n : Nat) (frame : List Byte) (id : LineId) : Nat :=
  if id = c.ser then frameValue frame else s.heldBits (8 * n) id

/-- The level of a line after the shift of a frame of n bytes on a chain: its serial line keeps the last bit (R140). -/
def State.lineAfterChainShift (s : State) (c : Chain) (n : Nat) (frame : List Byte) (id : LineId) : Level :=
  if id = c.ser then txBit frame (8 * n - 1) else s.line id

variable {c : Chain} {n : Nat} {frame : List Byte}

/-- The shift of a frame of at least one byte: 24 line steps a byte, the frame taken in, the last bit left on the serial
line (R141). -/
theorem lineRun_chainShift (hinv : s.Inv) (hidle : s.ControlIdle) (hc : c ∈ s.cfg.chains) (hlen : frame.length = n)
    (hn : 1 ≤ n) :
    LineRun (24 * n) (s.loaded c.clk (8 * n) (s.chainSent c n frame)) (s.lineAfterChainShift c n frame) s
      (s.runPrims (shiftFrameSteps c.ser c.clk frame)) := by
  subst hlen
  have run := (sendsBits_chain hc frame).lineRun_rounds hinv hidle (Config.clk_mem_of_chain hinv.wf hc)
    (8 * frame.length)
  rw [← shiftFrameSteps_eq_roundSteps, ← Nat.mul_assoc] at run
  refine run.congr (fun d _ => congrArg (s.loaded c.clk _ · d) (funext fun id => ?_)) fun id => if_neg (by omega)
  by_cases hid : id = c.ser
  · simp only [State.chainSent, hid, if_true]
    exact bitsSent_txBit frame
  · simp only [State.chainSent, hid, if_false]
    exact bitsSent_const _ _

/-- Settles O23: the shift of a frame of one byte. -/
theorem shiftByteLoadsEightBits : Obligations.ShiftByteLoadsEightBits := by
  intro s u b hinv hidle hu
  have run := lineRun_chainShift (frame := [b]) (n := 1) hinv hidle (Config.chainAt_mem hu) rfl le_rfl
  have value : frameValue [b] = b.toNat := by simp [frameValue]
  obtain ⟨t, hexec, heq, hlines, hcells, htrace⟩ := run.exec (i := .srShiftb u b) (unitCheck_eq_none.mpr hu)
    (by rw [shiftFrameSteps, List.flatMap_singleton]; rfl)
  exact ⟨t, hexec, value ▸ heq, hlines, hcells, htrace⟩

/-! ### A device that has taken in a whole frame -/

@[simp] theorem loaded_id : (s.loaded clk k a d).id = d.id := by
  unfold State.loaded
  split
  · rfl
  · split <;> rfl

@[simp] theorem committed_id {L : LineId} : (s.committed L d).id = d.id := by
  unfold State.committed
  split
  · rfl
  · split <;> rfl

theorem committed_out {L : LineId} {w : Wiring} (hw : s.cfg.wiring d.id = some w) (hL : w.latch = some L) :
    (s.committed L d).out = some d.sr := by
  simp [State.committed, hw, hL]

theorem wiring_chain {cfg : Config} {u : Byte} (hu : u.toNat < cfg.chains.length) :
    cfg.wiring (.chain u.toNat) = some ((cfg.chainAt u).wiring cfg) := by
  simp [Config.wiring, Config.chainAt, hu]

/-- Whatever the chain's device held, it holds the frame (R135). -/
theorem sr_loaded_chain {u : Byte} (hu : u.toNat < s.cfg.chains.length) (hlen : frame.length = (s.cfg.chainAt u).n)
    (hd : d.id = .chain u.toNat) :
    (s.loaded (s.cfg.chainAt u).clk (8 * (s.cfg.chainAt u).n)
      (s.chainSent (s.cfg.chainAt u) (s.cfg.chainAt u).n frame) d).sr = frameValue frame := by
  have hlt : frameValue frame < 2 ^ (8 * (s.cfg.chainAt u).n) := hlen ▸ frameValue_lt frame
  simp [State.loaded, hd, wiring_chain hu, Chain.wiring, State.chainSent, Nat.mul_add_mod_self_right,
    Nat.mod_eq_of_lt hlt]

/-- A chain has at least one byte (R7). -/
theorem one_le_chainAt_n {cfg : Config} {u : Byte} (wf : cfg.WF) (hu : u.toNat < cfg.chains.length) :
    1 ≤ (cfg.chainAt u).n := by
  obtain ⟨-, ⟨hchains, -⟩, -⟩ := wf
  exact hchains _ (Config.chainAt_mem hu)

/-- Settles O24: the whole register is the frame, since the frame has as many bits as the device has stages. -/
theorem shiftFrameLoadsTheFrame : Obligations.ShiftFrameLoadsTheFrame := by
  intro s u data hinv hidle hu hlen
  have run := lineRun_chainShift hinv hidle (Config.chainAt_mem hu) hlen (one_le_chainAt_n hinv.wf hu)
  obtain ⟨t, hexec, heq, hlines, hcells, htrace⟩ :=
    run.exec (i := .srShiftx u data) (firstFault_unit_length hu hlen) rfl
  refine ⟨t, hexec, heq, fun d hd hid => ?_, hlines, hcells, htrace⟩
  rw [heq] at hd
  obtain ⟨d', -, rfl⟩ := List.mem_map.mp hd
  exact sr_loaded_chain hu hlen (loaded_id.symm.trans hid)

/-! ### The shift and the latch -/

/-- After a chain's shift the block meets its invariant, with the control lines idle again. -/
theorem inv_and_idle_chainShift (hinv : s.Inv) (hidle : s.ControlIdle) (hc : c ∈ s.cfg.chains) (frame : List Byte) :
    (s.runPrims (shiftFrameSteps c.ser c.clk frame)).Inv ∧
    (s.runPrims (shiftFrameSteps c.ser c.clk frame)).ControlIdle :=
  ⟨inv_runPrims_of_isDrive hinv fun _ => isDrive_of_mem_shiftFrameSteps,
    keepsIdle_chainShift hinv.wf hc frame s rfl (linesWf_of_inv hinv) hidle⟩

/-- The shift and then one pulse of the latch line the chain owns (R144). -/
theorem lineRun_chainWrite {L : LineId} (hinv : s.Inv) (hidle : s.ControlIdle) (hc : c ∈ s.cfg.chains)
    (hlen : frame.length = n) (hn : 1 ≤ n) (hL : c.latch = some L) :
    LineRun (24 * n + 2) (fun d => s.committed L (s.loaded c.clk (8 * n) (s.chainSent c n frame) d))
      (s.lineAfterChainShift c n frame) s
      (s.runPrims (shiftFrameSteps c.ser c.clk frame ++ latchSteps c.latch)) := by
  have shift := lineRun_chainShift hinv hidle hc hlen hn
  obtain ⟨hinv', hidle'⟩ := inv_and_idle_chainShift hinv hidle hc frame
  have latch := lineRun_latch (L := L) hinv' hidle' (by rw [shift.cfg_eq]; exact Config.latch_mem_of_chain hc hL)
  rw [hL, runPrims_append]
  exact (shift.trans latch).congr (fun d _ => committed_congr shift.cfg_eq L) shift.levels

/-- A run of line steps, and then the diagnostic of an absent latch line and the response (R139, R144). -/
theorem LineRun.noLatch_eq {f : Device → Device} {level : LineId → Level} (h : LineRun k f level s t) :
    let u := (t.prim (.diag .noLatch)).respond []
    u = { s with
      lines := u.lines, cp := Cp.idle, trace := u.trace, diag := { s.diag with noLatch := true },
      devs := s.devs.map f } ∧
    ∃ ticks, ticks.length = k ∧ u.trace = [.resp []] :: [.diag .noLatch] :: ticks ++ s.trace := by
  obtain ⟨ticks, hk, htrace⟩ := h.grown
  refine ⟨congrArg (fun x => (x.prim (.diag .noLatch)).respond []) h.eq, ticks, hk, ?_⟩
  exact congrArg ([.resp []] :: [.diag .noLatch] :: ·) htrace

/-- Settles O27: the run of the shift, and then the pulse of the latch line or the diagnostic. -/
theorem writeExactShiftsThenLatches : Obligations.WriteExactShiftsThenLatches := by
  intro s u data hinv hidle hu hlen
  have hc := Config.chainAt_mem hu
  have hn := one_le_chainAt_n hinv.wf hu
  have hf : commandFault (.srWritex u data) s = none := firstFault_unit_length hu hlen
  cases hL : (s.cfg.chainAt u).latch with
  | some L =>
    have run := lineRun_chainWrite hinv hidle hc hlen hn hL
    obtain ⟨t, hexec, heq, hlines, hcells, htrace⟩ := run.exec hf rfl
    refine ⟨t, hexec, hlines, hcells, fun M hM => ?_, nofun⟩
    obtain rfl := Option.some.inj hM
    exact ⟨heq, htrace⟩
  | none =>
    have shift := lineRun_chainShift hinv hidle hc hlen hn
    have hexec := exec_of_body hf (body := shiftFrameSteps _ _ data ++ [.diag .noLatch])
      (congrArg (shiftFrameSteps _ _ data ++ latchSteps · ++ _) hL)
    rw [runPrims_append] at hexec
    exact ⟨_, hexec, shift.levels, shift.readCell_eq, nofun, fun _ => shift.noLatch_eq⟩

/-! ### What the pins show -/

/-- The pins of a device of the block show its OUT (R35, R136). -/
theorem pins_of_out {id : DevId} {v : Nat} (hid : id ∈ s.devs.map Device.id) (hw : (s.cfg.wiring id).isSome)
    (hout : ∀ d ∈ s.devs, d.id = id → d.out = some v) : s.pins id = v := by
  obtain ⟨w, hw⟩ := Option.isSome_iff_exists.mp hw
  cases hfind : s.devs.find? (fun d => d.id = id) with
  | none =>
    obtain ⟨d, hd, hdid⟩ := List.mem_map.mp hid
    exact absurd (List.find?_eq_none.mp hfind d hd) (by simp [hdid])
  | some d =>
    have hd : d.out = some v := hout d (List.mem_of_find?_eq_some hfind) (by simpa using List.find?_some hfind)
    simp only [State.pins, hfind, hw, hd]

theorem chain_mem_devIds {cfg : Config} {u : Byte} (hu : u.toNat < cfg.chains.length) :
    .chain u.toNat ∈ cfg.devIds := by
  simp [Config.devIds, hu]

/-- Settles O28: OUT is the frame's big-endian value, and its bytes from the least significant are the frame's from the
last. -/
theorem farEndChipShowsTheFirstByte : Obligations.FarEndChipShowsTheFirstByte := by
  intro s u data L hinv hidle hu hlen hL
  have hc := Config.chainAt_mem hu
  have run := lineRun_chainWrite hinv hidle hc hlen (one_le_chainAt_n hinv.wf hu) hL
  obtain ⟨t, hexec, heq, -⟩ := run.exec (i := .srWritex u data) (firstFault_unit_length hu hlen) rfl
  obtain ⟨hids, -⟩ := hinv.devices
  have hcfg : t.cfg = s.cfg := by rw [heq]
  have hdevs : t.devs = s.devs.map _ := congrArg State.devs heq
  have hlatch : ((s.cfg.chainAt u).wiring s.cfg).latch = some L := by simp [Chain.wiring, hL]
  have hpins : t.pins (.chain u.toNat) = frameValue data := by
    refine pins_of_out ?_ (by rw [hcfg, wiring_chain hu]; rfl) fun d hd hid => ?_
    · rw [hdevs, List.map_map]
      simpa [Function.comp_def, hids] using chain_mem_devIds hu
    · rw [hdevs] at hd
      obtain ⟨d', -, rfl⟩ := List.mem_map.mp hd
      have hid' : d'.id = .chain u.toNat := by simpa using hid
      rw [committed_out (w := (s.cfg.chainAt u).wiring s.cfg) (by rw [loaded_id, hid', wiring_chain hu]) hlatch,
        sr_loaded_chain hu hlen hid']
  refine ⟨t, hexec, fun j hj => ?_⟩
  rw [State.chipValue, hpins, ← hlen]
  exact byte_frameValue (hlen ▸ hj)

end Sys2Proof.Machine
end

section
/-! SUPPORT. When the outputs of a device move (spec/41_shift_register.md R133, R148): at a rising latch edge only. -/

namespace Sys2Proof.Machine

variable {s t : State} {d : Device} {id : LineId} {old new : Level}

/-- A device whose OUT a line event changes has committed its serial register and traced the latch (R133). -/
theorem latched_of_deviceAfter_out_ne (h : (s.deviceAfter id old new d).out ≠ d.out) :
    (s.deviceAfter id old new d).out = some d.sr ∧ .devLatch d.id ∈ s.deviceEvents id old new d := by
  unfold State.deviceAfter State.deviceEvents State.reactionOf at *
  cases hw : s.cfg.wiring d.id with
  | none => simp [hw] at h
  | some w =>
    simp only [hw, Option.bind_some] at h ⊢
    cases hr : reactionTo w s.line id old new with
    | none => simp [hr] at h
    | some r =>
      simp only [hr] at h ⊢
      cases r with
      | latch => exact ⟨rfl, List.mem_singleton.mpr rfl⟩
      | shift _ | held | clear => exact absurd rfl h

/-- Every device whose OUT is another in the second state has committed its serial register between them, and the groups
by which the trace has grown tell of the latch (R133, R148). -/
def OutLatched (s t : State) : Prop :=
  t.devs.length = s.devs.length ∧
  ∀ (j : Nat) (d e : Device), s.devs[j]? = some d → t.devs[j]? = some e → e.out ≠ d.out →
    e.out = some d.sr ∧ .devLatch d.id ∈ newEvents s t

theorem outLatched_of_devs_eq (h : t.devs = s.devs) : OutLatched s t := by
  refine ⟨by rw [h], fun j d e hd he hne => ?_⟩
  rw [h, hd] at he
  exact absurd (congrArg Device.out (Option.some.inj he)).symm hne

theorem outLatched_lineWrite (s : State) (id : LineId) (l : Level) : OutLatched s (s.prim (.lineWrite id l)) := by
  refine ⟨List.length_map _, fun j d e hd he hne => ?_⟩
  have he' : e = (s.putLine id l).deviceAfter id (s.line id) l d := by
    simpa [State.prim, hd, eq_comm] using he
  subst he'
  obtain ⟨hout, hevent⟩ := latched_of_deviceAfter_out_ne hne
  have grown : (s.prim (.lineWrite id l)).trace =
    [.lineEv id (s.line id) l :: s.devs.flatMap ((s.putLine id l).deviceEvents id (s.line id) l)] ++ s.trace := rfl
  rw [newEvents_of_append grown, List.flatten_singleton]
  exact ⟨hout, List.mem_cons_of_mem _ (List.mem_flatMap_of_mem (List.mem_of_getElem? hd) hevent)⟩

/-- Only driving a line moves a device (R131). -/
theorem outLatched_prim (s : State) (p : Prim) : OutLatched s (s.prim p) := by
  cases p with
  | lineWrite id l => exact outLatched_lineWrite s id l
  | _ => exact outLatched_of_devs_eq rfl

theorem outLatched_cpStep (s : State) : OutLatched s (cpStep s) := by
  rcases cpStep_cases s with h | ⟨c, -, h⟩ | ⟨p, ps, -, h⟩ | ⟨packet, rest, -, h⟩ <;> rw [h]
  · exact outLatched_of_devs_eq rfl
  · exact outLatched_of_devs_eq rfl
  · exact outLatched_prim s p
  · exact outLatched_of_devs_eq rfl

/-- The scan engine moves no device (R60, R212). -/
theorem scanStep_devs : (scanStep s).devs = s.devs := by
  unfold scanStep
  split <;> rfl

/-- Settles O32: a step of the processor is at most one primitive, and the other agents move no device. -/
theorem outputsMoveOnlyAtALatch : Obligations.OutputsMoveOnlyAtALatch := by
  intro s t _ hn hcommand h
  rw [step] at h
  cases hturn : s.turn with
  | command => exact absurd hturn hcommand
  | cp =>
    rw [hturn] at h
    exact Host.Outcome.next.inj h ▸ outLatched_cpStep s.begun
  | scan =>
    rw [hturn] at h
    exact Host.Outcome.next.inj h ▸ outLatched_of_devs_eq (scanStep_devs (s := s.begun))
  | env levels =>
    rw [hturn] at h
    exact Host.Outcome.next.inj h ▸ outLatched_of_devs_eq rfl
  | reset cfg draw =>
    rw [State.NoReset, hturn] at hn
    cases hn

end Sys2Proof.Machine
end

section
/-! SUPPORT. Banks: the lockstep shift of all lanes on one clock, and the group's latch after it
(spec/42_parallel_bank.md R160 to R163). -/

namespace Sys2Proof

/-! ### Looking names up -/

namespace Sparse

variable {α β : Type} {ps : List (Nat × α)} {k : Nat} {v : α}

theorem lookup_eq_none_of_not_mem (h : k ∉ ps.map Prod.fst) : ps.lookup k = none :=
  List.lookup_eq_none_iff.mpr fun _ hp => bne_iff_ne.mpr fun hk => h (hk ▸ List.mem_map_of_mem hp)

theorem mem_of_lookup_eq_some (h : ps.lookup k = some v) : (k, v) ∈ ps := by
  obtain ⟨before, after, rfl, -⟩ := List.lookup_eq_some_iff.mp h
  exact List.mem_append_right _ List.mem_cons_self

/-- Where the names are distinct, each entry is the one found under its name. -/
theorem lookup_of_mem (hn : (ps.map Prod.fst).Nodup) (h : (k, v) ∈ ps) : ps.lookup k = some v := by
  obtain ⟨before, after, rfl⟩ := List.append_of_mem h
  refine List.lookup_eq_some_iff.mpr ⟨before, after, rfl, fun p hp => bne_iff_ne.mpr fun hk => ?_⟩
  rw [List.map_append, List.nodup_append] at hn
  obtain ⟨-, -, apart⟩ := hn
  exact apart p.1 (List.mem_map_of_mem hp) k List.mem_cons_self hk.symm

theorem lookup_map_snd (f : α → β) : (ps.map (Prod.map id f)).lookup k = (ps.lookup k).map f := by
  induction ps with
  | nil => rfl
  | cons p ps ih =>
    obtain ⟨k', v⟩ := p
    cases hk : k == k' <;> simp [List.lookup_cons, hk, ih]

end Sparse

/-! ### Frames of the lanes -/

/-- Each lane's frame has a whole frame's bytes (R84). -/
theorem length_of_mem_laneFrames {lanes n : Nat} {data frame : List Byte} (hlen : data.length = lanes * n)
    (h : frame ∈ laneFrames lanes n data) : frame.length = n := by
  obtain ⟨l, hl, rfl⟩ := List.mem_map.mp h
  have hle : (l + 1) * n ≤ lanes * n := Nat.mul_le_mul_right n (List.mem_range.mp hl)
  rw [List.length_take, List.length_drop, hlen]
  rw [Nat.succ_mul] at hle
  omega

theorem length_laneFrames {lanes n : Nat} (data : List Byte) : (laneFrames lanes n data).length = lanes := by
  simp [laneFrames]

theorem getElem?_laneFrames {lanes n l : Nat} (data : List Byte) (h : l < lanes) :
    (laneFrames lanes n data)[l]? = some ((data.drop (l * n)).take n) := by
  simp [laneFrames, h]

/-! ### The lines of a bank -/

namespace Config

variable {cfg : Config} {b : Bank} {k l : Nat} {ser : LineId}

theorem bankAt_mem (h : k < cfg.banks.length) : cfg.bankAt k ∈ cfg.banks := by
  rw [bankAt, List.getD_eq_getElem _ _ h]
  exact List.getElem_mem h

/-- The lanes of a bank have a serial line each (R8, WF_OWN i). -/
theorem ser_nodup_of_bank (wf : cfg.WF) (h : b ∈ cfg.banks) : b.ser.Nodup := by
  obtain ⟨-, -, -, -, houtput, -⟩ := wf
  simp only [outputLines, dataLines, serLines, List.nodup_append, List.nodup_flatMap] at houtput
  obtain ⟨⟨⟨⟨-, ⟨hbanks, -⟩, -⟩, -⟩, -⟩, -⟩ := houtput
  exact hbanks b h

/-- The shared clock of a bank is a shift clock of the block (R160). -/
theorem clk_mem_of_bank (wf : cfg.WF) (h : b ∈ cfg.banks) : (cfg.groupAt b.group).clk ∈ cfg.clkLines := by
  obtain ⟨⟨-, -, -, -, -, -, -, -, hgroup⟩, -⟩ := wf
  exact clk_mem_of_group (groupAt_mem (hgroup b h))

/-- A bank has at least one byte a lane (R7). -/
theorem one_le_bank_n (wf : cfg.WF) (h : b ∈ cfg.banks) : 1 ≤ b.n := by
  obtain ⟨-, ⟨-, hbanks, -⟩, -⟩ := wf
  obtain ⟨hn, -⟩ := hbanks b h
  exact hn

theorem lane_mem_devIds : .lane k l ∈ cfg.devIds ↔ k < cfg.banks.length ∧ l < (cfg.bankAt k).lanes := by
  simp [devIds, and_comm, and_left_comm]

theorem wiring_lane (hk : k < cfg.banks.length) (hser : (cfg.bankAt k).ser[l]? = some ser) :
    cfg.wiring (.lane k l) = some ((cfg.bankAt k).laneWiring cfg ser) := by
  rw [bankAt, List.getD_eq_getElem _ _ hk] at hser ⊢
  simp [wiring, hk, hser]

end Config

namespace Machine

variable {s : State} {b : Bank} {frames : List (List Byte)} {d : Device} {k l : Nat} {id : LineId} {frame : List Byte}

/-- A device that is a lane's has the wiring of a lane of its bank (R130, R160). -/
theorem exists_wiring_of_lane (hinv : s.Inv) (hd : d ∈ s.devs) (hid : d.id = .lane k l) :
    ∃ ser, (s.cfg.bankAt k).ser[l]? = some ser ∧
      s.cfg.wiring d.id = some ((s.cfg.bankAt k).laneWiring s.cfg ser) := by
  obtain ⟨hids, -⟩ := hinv.devices
  obtain ⟨hk, hl⟩ := Config.lane_mem_devIds.mp (hid ▸ hids ▸ List.mem_map_of_mem hd)
  have hser := List.getElem?_eq_getElem hl
  exact ⟨_, hser, hid ▸ Config.wiring_lane hk hser⟩

/-! ### The lockstep shift -/

/-- The level of a line at tick i of a bank's shift: a lane's serial line carries its frame's bit (R161). -/
def State.lineAtTick (s : State) (b : Bank) (frames : List (List Byte)) (i : Nat) (id : LineId) : Level :=
  ((b.ser.zip frames).lookup id).elim (s.line id) (txBit · i)

theorem lineAfterShift_eq_lineAtTick :
    s.lineAfterShift b frames id = s.lineAtTick b frames (8 * b.n - 1) id := by
  unfold State.lineAfterShift State.lineAtTick
  cases (b.ser.zip frames).lookup id <;> rfl

/-- What a serial line sends in the ticks of a shift: its lane's frame, or copies of its level (R161, R273). -/
theorem bitsSent_lineAtTick (hlen : ∀ frame ∈ frames, frame.length = b.n) :
    bitsSent (s.lineAtTick b frames · id) (8 * b.n) = s.laneSent b frames id := by
  unfold State.lineAtTick State.laneSent
  cases hlookup : (b.ser.zip frames).lookup id with
  | none => exact bitsSent_const _ _
  | some frame =>
    rw [← hlen frame (List.of_mem_zip (Sparse.mem_of_lookup_eq_some hlookup)).2]
    exact bitsSent_txBit frame

theorem lookup_laneLevels (i : Nat) :
    (laneLevels b.ser frames i).lookup id = ((b.ser.zip frames).lookup id).map (txBit · i) := by
  rw [laneLevels_eq_zip, List.zip_map_right, Sparse.lookup_map_snd]

/-- A bank's shift drives the serial lines of its lanes, and no other (R161). -/
theorem sendsBits_bank (wf : s.cfg.WF) (hb : b ∈ s.cfg.banks) (hlanes : b.lanes ≤ frames.length) :
    SendsBits s b.ser (fun i => .lineWriteAll (laneLevels b.ser frames i)) (s.lineAtTick b frames) where
  ser _ hid := Config.ser_mem_of_bank hb hid
  drives _ := rfl
  others i id hid := by
    rw [State.lineAtTick, Sparse.lookup_eq_none_of_not_mem (by rwa [List.map_fst_zip hlanes])]
    rfl
  run i t ht _ hothers := by
    refine ⟨by rw [List.map_id]; rfl, ⟨[_], rfl, rfl⟩, fun id => ?_⟩
    have hnodup : ((laneLevels b.ser frames i).map Prod.fst).Nodup := by
      rw [laneLevels_eq_zip, List.map_fst_zip (by simpa using hlanes)]
      exact Config.ser_nodup_of_bank wf hb
    have level := Sparse.get_setAll_eq_lookup (linesWf_of_inv ht) hnodup id
    rw [lookup_laneLevels] at level
    refine level.trans ?_
    unfold State.lineAtTick
    cases hlookup : (b.ser.zip frames).lookup id with
    | some frame => rfl
    | none =>
      refine hothers id fun hid => ?_
      rw [← List.map_fst_zip hlanes] at hid
      obtain ⟨p, hp, rfl⟩ := List.mem_map.mp hid
      simpa using List.lookup_eq_none_iff.mp hlookup p hp

/-- The shift of a bank: 24 line steps a byte whatever the number of lanes, each lane's frame taken in, its last bit
left on its serial line (R161, R162). -/
theorem lineRun_bankShift (hinv : s.Inv) (hidle : s.ControlIdle) (hb : b ∈ s.cfg.banks)
    (hlanes : b.lanes ≤ frames.length) (hlen : ∀ frame ∈ frames, frame.length = b.n) :
    LineRun (24 * b.n) (s.loaded (s.cfg.groupAt b.group).clk (8 * b.n) (s.laneSent b frames))
      (s.lineAfterShift b frames) s (s.runPrims (bankShiftSteps s.cfg b frames)) := by
  have run := (sendsBits_bank hinv.wf hb hlanes).lineRun_rounds hinv hidle (Config.clk_mem_of_bank hinv.wf hb) (8 * b.n)
  have hn := Config.one_le_bank_n hinv.wf hb
  simp only [bitsSent_lineAtTick hlen, ← Nat.mul_assoc] at run
  refine run.congr (fun _ _ => rfl) fun id => ?_
  rw [if_neg (by omega), lineAfterShift_eq_lineAtTick]

/-- Whatever a lane's device held, it holds the lane's frame (R135, R161). -/
theorem sr_loaded_lane (hinv : s.Inv) (hk : k < s.cfg.banks.length) (hd : d ∈ s.devs) (hid : d.id = .lane k l)
    (hlanes : (s.cfg.bankAt k).lanes ≤ frames.length) (hframe : frames[l]? = some frame)
    (hlen : frame.length = (s.cfg.bankAt k).n) :
    (s.loaded (s.cfg.groupAt (s.cfg.bankAt k).group).clk (8 * (s.cfg.bankAt k).n)
      (s.laneSent (s.cfg.bankAt k) frames) d).sr = frameValue frame := by
  obtain ⟨ser, hser, hw⟩ := exists_wiring_of_lane hinv hd hid
  have hnodup : (((s.cfg.bankAt k).ser.zip frames).map Prod.fst).Nodup := by
    rw [List.map_fst_zip hlanes]
    exact Config.ser_nodup_of_bank hinv.wf (Config.bankAt_mem hk)
  have hmem : (ser, frame) ∈ (s.cfg.bankAt k).ser.zip frames :=
    List.mem_of_getElem? (List.getElem?_zip_eq_some.mpr ⟨hser, hframe⟩)
  have sent : s.laneSent (s.cfg.bankAt k) frames ser = frameValue frame := by
    rw [State.laneSent, Sparse.lookup_of_mem hnodup hmem]
  have hlt : frameValue frame < 2 ^ (8 * (s.cfg.bankAt k).n) := hlen ▸ frameValue_lt frame
  simp [State.loaded, hw, Bank.laneWiring, sent, Nat.mul_add_mod_self_right, Nat.mod_eq_of_lt hlt]

/-- The same, of the frames that a command's data gives the lanes (R84). -/
theorem sr_loaded_laneFrames {data : List Byte} (hinv : s.Inv) (hk : k < s.cfg.banks.length)
    (hdata : data.length = (s.cfg.bankAt k).lanes * (s.cfg.bankAt k).n) (hd : d ∈ s.devs) (hid : d.id = .lane k l) :
    (s.loaded (s.cfg.groupAt (s.cfg.bankAt k).group).clk (8 * (s.cfg.bankAt k).n)
      (s.laneSent (s.cfg.bankAt k) (laneFrames (s.cfg.bankAt k).lanes (s.cfg.bankAt k).n data)) d).sr =
      frameValue ((data.drop (l * (s.cfg.bankAt k).n)).take (s.cfg.bankAt k).n) := by
  obtain ⟨ser, hser, -⟩ := exists_wiring_of_lane hinv hd hid
  obtain ⟨hl, -⟩ := List.getElem?_eq_some_iff.mp hser
  have hframe := getElem?_laneFrames (n := (s.cfg.bankAt k).n) data hl
  exact sr_loaded_lane hinv hk hd hid (length_laneFrames data).ge hframe
    (length_of_mem_laneFrames hdata (List.mem_of_getElem? hframe))

/-- Settles O29: the shift of the bank with the frames that the data gives its lanes. -/
theorem bankShiftLoadsEveryLane : Obligations.BankShiftLoadsEveryLane := by
  intro s u data hinv hidle hu hdata b frames
  have run := lineRun_bankShift hinv hidle (Config.bankAt_mem hu) (length_laneFrames data).ge
    fun _ => length_of_mem_laneFrames hdata
  obtain ⟨t, hexec, heq, hlines, hcells, htrace⟩ :=
    run.exec (i := .pbShiftl u data) (firstFault_unit_length hu hdata) rfl
  refine ⟨t, hexec, heq, fun d hd l hid => ?_, hlines, hcells, htrace⟩
  rw [heq] at hd
  obtain ⟨d', hd', rfl⟩ := List.mem_map.mp hd
  exact sr_loaded_laneFrames hinv hu hdata hd' (loaded_id.symm.trans hid)

/-! ### The shift and the latch of the group -/

/-- After a bank's shift the block meets its invariant, with the control lines idle again. -/
theorem inv_and_idle_bankShift (hinv : s.Inv) (hidle : s.ControlIdle) (k : Nat) (frames : List (List Byte)) :
    (s.runPrims (bankShiftSteps s.cfg (s.cfg.bankAt k) frames)).Inv ∧
    (s.runPrims (bankShiftSteps s.cfg (s.cfg.bankAt k) frames)).ControlIdle :=
  ⟨inv_runPrims_of_isDrive hinv fun _ => isDrive_of_mem_bankShiftSteps,
    keepsIdle_bankShiftSteps hinv.wf k frames s rfl (linesWf_of_inv hinv) hidle⟩

/-- The shift and then one pulse of the group's latch line (R163). -/
theorem lineRun_bankWrite {L : LineId} (hinv : s.Inv) (hidle : s.ControlIdle) (hk : k < s.cfg.banks.length)
    (hlanes : (s.cfg.bankAt k).lanes ≤ frames.length) (hlen : ∀ frame ∈ frames, frame.length = (s.cfg.bankAt k).n)
    (hL : (s.cfg.groupAt (s.cfg.bankAt k).group).latch = some L) :
    LineRun (24 * (s.cfg.bankAt k).n + 2)
      (fun d => s.committed L (s.loaded (s.cfg.groupAt (s.cfg.bankAt k).group).clk (8 * (s.cfg.bankAt k).n)
        (s.laneSent (s.cfg.bankAt k) frames) d))
      (s.lineAfterShift (s.cfg.bankAt k) frames) s
      (s.runPrims (bankWriteSteps s.cfg (s.cfg.bankAt k) frames)) := by
  have shift := lineRun_bankShift hinv hidle (Config.bankAt_mem hk) hlanes hlen
  obtain ⟨hinv', hidle'⟩ := inv_and_idle_bankShift hinv hidle k frames
  have latch := lineRun_latch (L := L) hinv' hidle' (by rw [shift.cfg_eq]; exact Config.latch_groupAt_mem hL)
  rw [bankWriteSteps, hL, runPrims_append]
  exact (shift.trans latch).congr (fun d _ => committed_congr shift.cfg_eq L) shift.levels

/-- The group's latch line commits each lane of its banks (R133, R160). -/
theorem out_committed_lane {L : LineId} (hinv : s.Inv) (hd : d ∈ s.devs) (hid : d.id = .lane k l)
    (hL : (s.cfg.groupAt (s.cfg.bankAt k).group).latch = some L) {e : Device} (he : e.id = d.id) :
    (s.committed L e).out = some e.sr := by
  obtain ⟨ser, -, hw⟩ := exists_wiring_of_lane hinv hd hid
  exact committed_out (he ▸ hw) hL

/-- What a command answers that is one run of line steps, the diagnostic of an absent latch, and a response (R139). -/
theorem LineRun.exec_noLatch {n : Nat} {f : Device → Device} {level : LineId → Level} {i : Instr} {body : List Prim}
    (h : LineRun n f level s (s.runPrims body)) (hf : commandFault i s = none)
    (hsteps : commandSteps s.cfg i = body ++ [Prim.diag .noLatch] ++ [Prim.respond []]) :
    ∃ t : State, Machine.exec i s = .next t ∧ (∀ id, t.line id = level id) ∧ (∀ a, t.readCell a = s.readCell a) ∧
      t = { s with
        lines := t.lines, cp := Cp.idle, trace := t.trace, diag := { s.diag with noLatch := true },
        devs := s.devs.map f } ∧
      ∃ ticks : List (List Event), ticks.length = n ∧
        t.trace = [.resp []] :: [.diag .noLatch] :: ticks ++ s.trace := by
  have hexec : Machine.exec i s = .next (((s.runPrims body).prim (.diag .noLatch)).respond []) := by
    rw [exec_of_body hf hsteps, runPrims_append]
    rfl
  exact ⟨_, hexec, h.levels, h.readCell_eq, h.noLatch_eq⟩

/-- Settles O30: the run of the shift, and then the pulse of the group's latch line or the diagnostic. -/
theorem bankWriteShiftsThenLatches : Obligations.BankWriteShiftsThenLatches := by
  intro s u data hinv hidle hu hdata b frames
  have hlanes : b.lanes ≤ frames.length := (length_laneFrames data).ge
  have hlen : ∀ frame ∈ frames, frame.length = b.n := fun _ => length_of_mem_laneFrames hdata
  have hf : commandFault (.pbWritex u data) s = none := firstFault_unit_length hu hdata
  cases hL : (s.cfg.groupAt b.group).latch with
  | some L =>
    obtain ⟨t, hexec, heq, hlines, hcells, htrace⟩ := (lineRun_bankWrite hinv hidle hu hlanes hlen hL).exec hf rfl
    refine ⟨t, hexec, hlines, hcells, fun M hM => ?_, nofun⟩
    obtain rfl := Option.some.inj hM
    refine ⟨heq, fun d hd l hid => ?_, htrace⟩
    rw [heq] at hd
    obtain ⟨d', hd', rfl⟩ := List.mem_map.mp hd
    have hid' : d'.id = .lane u.toNat l := by simpa using hid
    rw [out_committed_lane hinv hd' hid' hL loaded_id, sr_loaded_laneFrames hinv hu hdata hd' hid']
  | none =>
    obtain ⟨t, hexec, hlines, hcells, hdiag⟩ :=
      (lineRun_bankShift hinv hidle (Config.bankAt_mem hu) hlanes hlen).exec_noLatch hf
        (congrArg (bankShiftSteps s.cfg b frames ++ latchSteps · ++ _) hL)
    exact ⟨t, hexec, hlines, hcells, nofun, fun _ => hdiag⟩

end Machine

end Sys2Proof
end

section
/-! SUPPORT. The lanes of a bank share their group's latch line, so their outputs move together
(spec/42_parallel_bank.md R164). -/

namespace Sys2Proof.Machine

variable {s t : State} {w : Wiring} {level : LineId → Level} {id : LineId} {old new : Level} {d : Device} {k l : Nat}

/-- A latch line that is not the clock commits at its rising edge, and a device commits at no other event (R133). -/
theorem reactionTo_eq_latch_iff :
    reactionTo w level id old new = some .latch ↔ w.latch = some id ∧ id ≠ w.clk ∧ old = false ∧ new = true := by
  constructor
  · intro h
    rcases reactionTo_cases h with ⟨hr, -⟩ | ⟨hr, -⟩ | ⟨-, hl, ho, hn⟩ | ⟨hr, -⟩
    · cases hr
    · cases hr
    · refine ⟨hl, fun hc => ?_, ho, hn⟩
      subst hc ho hn
      cases ha : clearActive w level <;> simp [reactionTo, ha] at h
    · cases hr
  · rintro ⟨hl, hc, rfl, rfl⟩
    exact reactionTo_latch_rise hl hc

/-- OUT of a device after a line event: SR if the event commits it, else as before (R131 to R134). -/
theorem deviceAfter_out (hw : s.cfg.wiring d.id = some w) :
    (s.deviceAfter id old new d).out =
      if reactionTo w s.line id old new = some .latch then some d.sr else d.out := by
  simp only [State.deviceAfter, hw]
  cases reactionTo w s.line id old new with
  | none => simp
  | some r => cases r <;> simp [Device.apply]

/-- The line event is a rising edge of the latch line that the lanes of bank k share (R133, R160). -/
abbrev State.CommitsBank (s : State) (k : Nat) (id : LineId) (old new : Level) : Prop :=
  (s.cfg.groupAt (s.cfg.bankAt k).group).latch = some id ∧ id ≠ (s.cfg.groupAt (s.cfg.bankAt k).group).clk ∧
    old = false ∧ new = true

/-- Whether a lane commits depends on its bank only, since all lanes have the clock and latch of the group (R160). -/
theorem deviceAfter_out_of_lane (hinv : s.Inv) (hd : d ∈ s.devs) (hid : d.id = .lane k l) :
    ((s.putLine id new).deviceAfter id old new d).out = if s.CommitsBank k id old new then some d.sr else d.out := by
  obtain ⟨ser, -, hw⟩ := exists_wiring_of_lane hinv hd hid
  rw [deviceAfter_out (s := s.putLine id new) hw]
  simp only [reactionTo_eq_latch_iff, Bank.laneWiring, State.CommitsBank]

/-- From the first state to the second, the outputs of all lanes of bank k stay, or all become what the lanes' serial
registers held (R164). -/
def LanesMoveTogether (k : Nat) (s t : State) : Prop :=
  (∀ l, (s.devs.find? fun d => d.id = .lane k l).map Device.out =
    (t.devs.find? fun d => d.id = .lane k l).map Device.out) ∨
  (∀ l, (s.devs.find? fun d => d.id = .lane k l).map (fun d => some d.sr) =
    (t.devs.find? fun d => d.id = .lane k l).map Device.out)

theorem lanesMoveTogether_of_devs_eq (h : t.devs = s.devs) : LanesMoveTogether k s t :=
  .inl fun _ => by rw [h]

/-- The output of lane l of bank k after a line is driven. -/
theorem lane_out_lineWrite (hinv : s.Inv) (k l : Nat) (id : LineId) (new : Level) :
    ((s.lineWrite id new).devs.find? fun d => d.id = .lane k l).map Device.out =
      (s.devs.find? fun d => d.id = .lane k l).map
        fun d => if s.CommitsBank k id (s.line id) new then some d.sr else d.out := by
  rw [lineWrite_devs, List.find?_map, Option.map_map]
  simp only [Function.comp_def, deviceAfter_id]
  refine Option.map_congr fun d hd => ?_
  exact deviceAfter_out_of_lane hinv (List.mem_of_find?_eq_some hd) (by simpa using List.find?_some hd)

theorem lanesMoveTogether_lineWrite (hinv : s.Inv) : LanesMoveTogether k s (s.prim (.lineWrite id new)) := by
  by_cases hc : s.CommitsBank k id (s.line id) new
  · exact .inr fun l => ((lane_out_lineWrite hinv k l id new).trans (by simp only [if_pos hc])).symm
  · exact .inl fun l => ((lane_out_lineWrite hinv k l id new).trans (by simp only [if_neg hc])).symm

/-- Only driving a line moves a device (R131). -/
theorem lanesMoveTogether_prim (hinv : s.Inv) (p : Prim) : LanesMoveTogether k s (s.prim p) := by
  cases p with
  | lineWrite id new => exact lanesMoveTogether_lineWrite hinv
  | _ => exact lanesMoveTogether_of_devs_eq rfl

/-- Settles O31: a step of the processor is at most one primitive, and a rising latch line is that of all lanes of the
bank or of none. -/
theorem lanesCommitTogether : Obligations.LanesCommitTogether := by
  intro s k hinv
  rcases cpStep_cases s with h | ⟨c, -, h⟩ | ⟨p, ps, -, h⟩ | ⟨packet, rest, -, h⟩ <;> rw [h]
  · exact lanesMoveTogether_of_devs_eq rfl
  · exact lanesMoveTogether_of_devs_eq rfl
  · exact lanesMoveTogether_prim hinv p
  · exact lanesMoveTogether_of_devs_eq rfl

end Sys2Proof.Machine
end

section
/-! SUPPORT. The bits of a bus (spec/43_parallel_bus.md R172, R178): a list of levels paired with the lines, and the
number that the lowest bits of a number pack to. -/

namespace Sys2Proof

/-- Among distinct lines, the one at place j is paired with the level at place j. -/
theorem lookup_zip_of_nodup {ids : List LineId} {bits : List Level} {j : Nat} {id : LineId} (hn : ids.Nodup)
    (hid : ids[j]? = some id) : (ids.zip bits).lookup id = bits[j]? := by
  induction ids generalizing bits j with
  | nil => cases hid
  | cons head ids ih =>
    rw [List.nodup_cons] at hn
    obtain ⟨hhead, hn⟩ := hn
    cases bits with
    | nil => rfl
    | cons bit bits =>
      cases j with
      | zero => simp_all
      | succ j =>
        have hne : id ≠ head := fun h => hhead (h ▸ List.mem_of_getElem? hid)
        rw [List.zip_cons_cons, List.lookup_cons, beq_false_of_ne hne]
        exact ih hn hid

/-- Lines paired with levels are distinct where the lines are. -/
theorem nodup_map_fst_zip {ids : List LineId} (hn : ids.Nodup) (bits : List Level) :
    ((ids.zip bits).map Prod.fst).Nodup := by
  rw [List.zip_eq_zip_take_min, List.map_fst_zip (by simp)]
  exact hn.sublist (List.take_sublist _ _)

/-- Bit j of a number, or the default beyond the bits taken. -/
theorem getD_unpack (n v j : Nat) (d : Level) : (unpack n v).getD j d = if j < n then v.testBit j else d := by
  by_cases h : j < n <;> simp [unpack, h]

theorem unpack_succ (n v : Nat) : unpack (n + 1) v = v.testBit 0 :: unpack n (v / 2) := by
  simp [unpack, List.range_succ_eq_map, Function.comp_def, Nat.testBit_succ]

/-- The lowest n bits of a number pack to its value modulo 2^n (R172). -/
theorem pack_unpack (n v : Nat) : pack (unpack n v) = v % 2 ^ n := by
  induction n generalizing v with
  | zero => simp [unpack, pack, Nat.mod_one]
  | succ n ih =>
    rw [unpack_succ, pack, ih, Nat.pow_succ', Nat.mod_mul, Nat.toNat_testBit, pow_zero, Nat.div_one]

namespace Config

variable {cfg : Config} {b : Bus}

theorem writerAt_mem {u : Byte} (h : u.toNat < cfg.writers.length) : cfg.writerAt u ∈ cfg.writers := by
  rw [writerAt, List.getD_eq_getElem _ _ h]
  exact List.getElem_mem h

/-- A writer names a line once (R8, WF_OWN v; log 13). -/
theorem line_nodup_of_writer (wf : cfg.WF) (h : b ∈ cfg.writers) : b.line.Nodup := by
  obtain ⟨-, -, -, -, houtput, -⟩ := wf
  simp only [outputLines, dataLines, writerLines, List.nodup_append, List.nodup_flatMap] at houtput
  obtain ⟨⟨⟨-, ⟨hwriters, -⟩, -⟩, -⟩, -⟩ := houtput
  exact hwriters b h

/-- The block drives the lines of its writers (R33). -/
theorem mem_outputLines_of_writer {id : LineId} (h : b ∈ cfg.writers) (hid : id ∈ b.line) : id ∈ cfg.outputLines := by
  have hline : id ∈ cfg.writerLines := List.mem_flatMap_of_mem h hid
  simp [outputLines, dataLines, hline]

end Config

end Sys2Proof
end

section
/-! SUPPORT. The bus commands (spec/43_parallel_bus.md): a read is one sample and its response, a write one drive of the
lines and an empty response. -/

namespace Sys2Proof.Machine

variable {s : State} {i : Instr} {b : Bus} {u : Byte} {bits : List Level}

/-- The checks of an accessor pass on a unit that exists and a bus that is not too wide (R173). -/
theorem firstFault_unit_width {count k : Nat} {c : Cause} (hu : u.toNat < count) (hn : b.n ≤ k) :
    firstFault [unitCheck u count, widthCheck b k c] = none := by
  simp [unitCheck_eq_none.mpr hu, widthCheck, hn]

/-! ### Reads -/

/-- A command that samples lines and responds with the sample changes nothing else (R171, R174). -/
theorem exec_of_sample {ids : List LineId} {packing : Packing} (hf : commandFault i s = none)
    (hsteps : commandSteps s.cfg i = [.sample ids packing, .respondResult]) : exec i s = .next { s with
      cp := Cp.idle
      trace := [.resp (packing.bytes (ids.map s.sample))] :: [.busSample ids (ids.map s.sample)] :: s.trace } := by
  rw [exec_of_ok hf, hsteps]
  rfl

/-- The levels of a whole bus, packed (R174). -/
theorem bytes_number_length (ids : List LineId) (k : Nat) :
    Packing.bytes (ids.map s.sample) (.number ids.length k) = bytesLE k (pack (ids.map s.sample)) := by
  rw [Packing.bytes, List.take_of_length_le (List.length_map _).le]

/-- Settles O33: each read is one sample, and its packing takes the lines its accessor reaches. -/
theorem busReadsReturnTheLevels : Obligations.BusReadsReturnTheLevels := by
  intro s u hu ids a
  have hunit := unitCheck_eq_none.mpr hu
  refine ⟨exec_of_sample (i := .brRdbits u) hunit rfl, fun hn => ?_, fun hn => ?_, ?_⟩
  · rw [exec_of_sample (i := .brRd8 u) (firstFault_unit_width hu hn) rfl, bytes_number_length, bytesLE_succ]
    rfl
  · rw [exec_of_sample (i := .brRd16 u) (firstFault_unit_width hu hn) rfl, bytes_number_length]
  · have hlines : a.take (min ids.length 32) = a.take 32 := by
      rw [List.take_eq_take_iff, List.length_map]
      omega
    rw [exec_of_sample (i := .brRd32 u) hunit rfl, Packing.bytes, hlines]

/-! ### Writes -/

/-- Driving a writer's lines: each line takes the level at its own place, and keeps its own where there is none. -/
theorem line_driveLevels (hinv : s.Inv) (hb : b ∈ s.cfg.writers) {j : Nat} {id : LineId} (hid : b.line[j]? = some id) :
    (s.lineWriteAll (driveLevels b bits)).line id = bits.getD j (s.line id) := by
  have hnodup := Config.line_nodup_of_writer hinv.wf hb
  rw [List.getD_eq_getElem?_getD, ← lookup_zip_of_nodup hnodup hid]
  exact Sparse.get_setAll_eq_lookup (linesWf_of_inv hinv) (nodup_map_fst_zip hnodup bits) id

/-- A command that drives a writer's lines and responds with nothing changes no other line and nothing else (R178). -/
theorem exec_of_drive {level : Nat → LineId → Level} (hinv : s.Inv) (hb : b ∈ s.cfg.writers)
    (hf : commandFault i s = none)
    (hsteps : commandSteps s.cfg i = [.lineWriteAll (driveLevels b bits), .respond []])
    (hlevel : ∀ j id, j < b.n → bits.getD j (s.line id) = level j id) :
    ∃ t g, exec i s = .next t ∧
      t = { s with lines := t.lines, cp := Cp.idle, trace := [.resp []] :: g :: s.trace } ∧
      (∀ j id, b.line[j]? = some id → t.line id = level j id) ∧ ∀ id, id ∉ b.line → t.line id = s.line id := by
  refine ⟨_, s.driveEvents (driveLevels b bits), exec_of_body (body := [_]) hf hsteps, rfl, fun j id hid => ?_,
    fun id hid => ?_⟩
  · exact (line_driveLevels hinv hb hid).trans (hlevel j id (List.getElem?_eq_some_iff.mp hid).1)
  · exact line_lineWriteAll_of_not_mem (linesWf_of_inv hinv) fun h => hid (fst_zip_subset h)

/-- On all lines of a bus the bits of a number are its own, the default is not reached. -/
theorem getD_unpack_toNat {w : Nat} (x : BitVec w) (j : Nat) (id : LineId) (hj : j < b.n) :
    (unpack b.n x.toNat).getD j (s.line id) = x.getLsbD j := by
  rw [getD_unpack, if_pos hj]
  rfl

/-- Settles O34: each write is one drive of the writer's lines by the bits its accessor gives. -/
theorem busWritesDriveTheLines : Obligations.BusWritesDriveTheLines := by
  intro s u b x y data hinv hu ids
  have hw := Config.writerAt_mem hu
  have hunit := unitCheck_eq_none.mpr hu
  refine ⟨fun hlen => ?_, fun hn => ?_, fun hn => ?_, ?_⟩
  · refine exec_of_drive hinv hw (firstFault_unit_length hu hlen) rfl fun j id hj => ?_
    simp [unpackBytes, hj]
  · exact exec_of_drive hinv hw (firstFault_unit_width hu hn) rfl (getD_unpack_toNat b)
  · exact exec_of_drive hinv hw (firstFault_unit_width hu hn) rfl (getD_unpack_toNat x)
  · refine exec_of_drive hinv hw hunit rfl fun j id hj => ?_
    simp only [getD_unpack, lt_min_iff, hj, true_and]
    rfl

end Sys2Proof.Machine
end

section
/-! SUPPORT. Lines move with their events: a line whose event no group of the trace tells of keeps its level. Hence the
loopback of a bus (spec/43_parallel_bus.md R185). -/

namespace Sys2Proof.Machine

variable {s t u : State} {ids : List LineId} {id : LineId}

/-- The line space stays canonical, the trace grows by groups of events, and a line whose level is another after them
has its event among them (R13, R16). -/
structure LinesTraced (s t : State) : Prop where
  cfg    : t.cfg = s.cfg
  wf     : Sparse.wf Config.low s.lines → Sparse.wf Config.low t.lines
  traced : Sparse.wf Config.low s.lines → ∃ groups, t.trace = groups ++ s.trace ∧
    ∀ id, t.line id = s.line id ∨ ∃ old new, .lineEv id old new ∈ groups.flatten

theorem LinesTraced.trans (h : LinesTraced s t) (h' : LinesTraced t u) : LinesTraced s u where
  cfg := h'.cfg.trans h.cfg
  wf hs := h'.wf (h.wf hs)
  traced hs := by
    obtain ⟨gs, htr, hlines⟩ := h.traced hs
    obtain ⟨gs', htr', hlines'⟩ := h'.traced (h.wf hs)
    refine ⟨gs' ++ gs, by rw [htr', htr, List.append_assoc], fun id => ?_⟩
    simp only [List.flatten_append, List.mem_append]
    rcases hlines' id with hstay | ⟨old, new, he⟩
    · exact (hlines id).imp hstay.trans fun ⟨old, new, he⟩ => ⟨old, new, .inr he⟩
    · exact .inr ⟨old, new, .inl he⟩

theorem linesTraced_of_lines_eq {groups : List (List Event)} (hcfg : t.cfg = s.cfg) (hlines : t.lines = s.lines)
    (htr : t.trace = groups ++ s.trace) : LinesTraced s t where
  cfg := hcfg
  wf hs := hlines ▸ hs
  traced _ := ⟨groups, htr, fun _ => .inl (by rw [State.line, hlines]; rfl)⟩

/-- Every line driven has its event. -/
theorem exists_lineEv_mem_driveEvents {ls : List (LineId × Level)} (h : id ∈ ls.map Prod.fst) :
    ∃ old new, .lineEv id old new ∈ s.driveEvents ls := by
  induction ls generalizing s with
  | nil => cases h
  | cons p ls ih =>
    rcases List.mem_cons.mp h with rfl | h
    · exact ⟨_, _, List.mem_cons_self⟩
    · obtain ⟨old, new, he⟩ := ih h
      exact ⟨old, new, List.mem_cons_of_mem _ he⟩

/-- Driving one line (R13). -/
theorem linesTraced_lineWrite (s : State) (id : LineId) (l : Level) : LinesTraced s (s.lineWrite id l) where
  cfg := rfl
  wf := linesWf_lineWrite
  traced hs := by
    refine ⟨[_], rfl, fun id' => ?_⟩
    rw [line_lineWrite hs]
    by_cases h : id' = id
    · subst h
      exact .inr ⟨_, _, List.mem_append_left _ List.mem_cons_self⟩
    · exact .inl (if_neg h)

/-- Driving many lines (R13). -/
theorem linesTraced_lineWriteAll (s : State) (ls : List (LineId × Level)) : LinesTraced s (s.lineWriteAll ls) where
  cfg := rfl
  wf := linesWf_lineWriteAll
  traced hs := by
    refine ⟨[_], rfl, fun id => ?_⟩
    by_cases h : id ∈ ls.map Prod.fst
    · obtain ⟨old, new, he⟩ := exists_lineEv_mem_driveEvents (s := s) h
      exact .inr ⟨old, new, List.mem_append_left _ he⟩
    · exact .inl (line_lineWriteAll_of_not_mem hs h)

theorem linesTraced_prim (s : State) (p : Prim) : LinesTraced s (s.prim p) := by
  cases p with
  | lineWrite id l =>
    exact (linesTraced_lineWrite s id l).trans (linesTraced_of_lines_eq (groups := []) rfl rfl rfl)
  | lineWriteAll ls =>
    exact (linesTraced_lineWriteAll s ls).trans (linesTraced_of_lines_eq (groups := []) rfl rfl rfl)
  | _ => exact linesTraced_of_lines_eq (groups := [_]) rfl rfl rfl

/-- The scan engine drives lines in S_DRV only (R212). -/
theorem linesTraced_scanStep (s : State) : LinesTraced s (scanStep s) := by
  unfold scanStep
  split
  case h_6 =>
    refine LinesTraced.trans ?_ (linesTraced_lineWriteAll _ _)
    exact linesTraced_of_lines_eq (groups := []) rfl rfl rfl
  all_goals exact linesTraced_of_lines_eq (groups := [_]) rfl rfl rfl

theorem linesTraced_stepClosed : StepClosed LinesTraced where
  refl _ := linesTraced_of_lines_eq (groups := []) rfl rfl rfl
  trans := LinesTraced.trans
  begun _ := linesTraced_of_lines_eq (groups := []) rfl rfl rfl
  raiseFault _ _ := linesTraced_of_lines_eq (groups := [_]) rfl rfl rfl
  accept _ _ _ _ _ := linesTraced_of_lines_eq (groups := [_]) rfl rfl rfl
  prim s p _ := linesTraced_prim s p
  scan := linesTraced_scanStep
  env _ _ := linesTraced_of_lines_eq (groups := [_]) rfl rfl rfl

/-- Steps that drive none of the lines keep their levels (R33). -/
theorem Undriven.line_eq (h : Undriven ids s t) (hs : Sparse.wf Config.low s.lines) :
    ∀ id ∈ ids, t.line id = s.line id := by
  suffices Sparse.wf Config.low t.lines ∧ ∀ id ∈ ids, t.line id = s.line id from this.2
  induction h with
  | refl => exact ⟨hs, fun _ _ => rfl⟩
  | snoc _ hn hstep hq ih =>
    obtain ⟨hwf, hline⟩ := ih
    have hlines := linesTraced_stepClosed.step hn hstep
    obtain ⟨groups, htr, htraced⟩ := hlines.traced hwf
    rw [newEvents_of_append htr] at hq
    refine ⟨hlines.wf hwf, fun id hid => ((htraced id).resolve_right ?_).trans (hline id hid)⟩
    rintro ⟨old, new, he⟩
    exact hq id hid old new he

/-! ### The loopback -/

variable {b : Bus} {k v : Nat}

/-- A writer's line samples as the level last driven on it (R34). -/
theorem sample_of_writer (hb : b ∈ s.cfg.writers) (hid : id ∈ b.line) : s.sample id = s.line id :=
  if_pos (List.contains_iff_mem.mpr (Config.mem_outputLines_of_writer hb hid))

/-- Lines that stand at the lowest bits of a number pack to it modulo 2^k (R172). -/
theorem pack_take_of_levels {level : LineId → Level} (hk : k ≤ ids.length)
    (hlevel : ∀ j id, j < k → ids[j]? = some id → level id = v.testBit j) :
    pack ((ids.map level).take k) = v % 2 ^ k := by
  have hbits : (ids.map level).take k = unpack k v := by
    refine List.ext_getElem (by simpa [unpack] using hk) fun j hj _ => ?_
    simp only [List.length_take, lt_inf_iff] at hj
    simp [unpack, hlevel j _ hj.1 (List.getElem?_eq_getElem (by omega))]
  rw [hbits, pack_unpack]

/-- What a write of k bits drives on a writer's lines, a read of k bits answers, as long as no step drives them. -/
theorem read_after_write {w r : Instr} {m : Nat} (hinv : s.Inv) (hb : b ∈ s.cfg.writers) (hk : k ≤ b.n)
    (hw : commandFault w s = none)
    (hwsteps : commandSteps s.cfg w = [.lineWriteAll (driveLevels b (unpack k v)), .respond []])
    (hr : ∀ q : State, q.cfg = s.cfg → commandFault r q = none)
    (hrsteps : commandSteps s.cfg r = [.sample b.line (.number k m), .respondResult]) :
    ∃ t, exec w s = .next t ∧ ∀ q, Undriven b.line t q →
      ∃ u, exec r q = .next u ∧ u.trace.head? = some [.resp (bytesLE m (v % 2 ^ k))] := by
  obtain ⟨t, g, hexec, -, hdriven, -⟩ := exec_of_drive hinv hb hw hwsteps fun _ _ _ => rfl
  have hwrite := linesTraced_stepClosed.exec hexec
  refine ⟨t, hexec, fun q hq => ?_⟩
  have hcfg : q.cfg = s.cfg := (hq.cfg_eq fun _ _ hn h => (linesTraced_stepClosed.step hn h).cfg).trans hwrite.cfg
  have hlevel : ∀ j id, j < k → b.line[j]? = some id → q.sample id = v.testBit j := fun j id hj hid => by
    have hmem := List.mem_of_getElem? hid
    calc q.sample id = q.line id := sample_of_writer (hcfg ▸ hb) hmem
      _ = t.line id := hq.line_eq (hwrite.wf (linesWf_of_inv hinv)) id hmem
      _ = (unpack k v).getD j (s.line id) := hdriven j id hid
      _ = v.testBit j := by rw [getD_unpack, if_pos hj]
  rw [exec_of_sample (hr q hcfg) (hcfg ▸ hrsteps), Packing.bytes, pack_take_of_levels hk hlevel]
  exact ⟨_, rfl, rfl⟩

/-- Settles O35: a writer and a reader of the same lines, and accessors of the same width on both. -/
theorem loopbackReadsBackTheValue : Obligations.LoopbackReadsBackTheValue := by
  intro s u k b x y hinv hu hk hsame ids n
  have hb := Config.writerAt_mem hu
  refine ⟨fun hn => ?_, fun hn => ?_, ?_⟩
  · exact read_after_write (w := .bwWr8 u b) (r := .brRd8 k) hinv hb le_rfl (firstFault_unit_width hu hn) rfl
      (fun q hq => firstFault_unit_width (hq ▸ hk) (hq ▸ hsame ▸ hn)) (by rw [commandSteps, brRd8Steps, ← hsame])
  · exact read_after_write (w := .bwWr16 u x) (r := .brRd16 k) hinv hb le_rfl (firstFault_unit_width hu hn) rfl
      (fun q hq => firstFault_unit_width (hq ▸ hk) (hq ▸ hsame ▸ hn)) (by rw [commandSteps, brRd16Steps, ← hsame])
  · exact read_after_write (w := .bwWr32 u y) (r := .brRd32 k) hinv hb (min_le_left _ _) (unitCheck_eq_none.mpr hu) rfl
      (fun q hq => unitCheck_eq_none.mpr (hq ▸ hk)) (by rw [commandSteps, brRd32Steps, ← hsame])

end Sys2Proof.Machine
end

section
/-! SUPPORT. The two pixel writers (spec/44_pixel_writer.md R190 to R201): what lies in the domain of each, the pixel that
is rejected, and the pixel that is written: one cell through the bus scan, three lanes of a bank through the registers. -/

namespace Sys2Proof

/-! ### Fields in frames -/

theorem length_field (x n : Nat) : (field x n).length = n := by simp [field, Laws.EncodedLength.bytesLE_length]

/-- A field that fits its frame is the frame's big-endian value (R97, R135). -/
theorem frameValue_field {x n : Nat} (h : x < 2 ^ (8 * n)) : frameValue (field x n) = x := by
  rw [pow_mul] at h
  rw [frameValue_eq_natLE, field, List.reverse_reverse, natLE_bytesLE]
  exact Nat.mod_eq_of_lt h

namespace Config

variable {cfg : Config} {k : Nat}

/-- The bank of the shift-register writer exists and has three lanes (WF_PXS). -/
theorem pxsBank_wf (wf : cfg.WF) (h : cfg.pxsBank = some k) : k < cfg.banks.length ∧ (cfg.bankAt k).lanes = 3 := by
  obtain ⟨-, -, -, hpxs, -⟩ := wf
  obtain ⟨hk, hlanes, -⟩ := hpxs k (by simp [h])
  exact ⟨hk, hlanes⟩

/-- The maxima of the shift-register writer's domain fit the frames of its bank (WF_PXS). -/
theorem pxsMax_lt (wf : cfg.WF) (h : cfg.pxsBank = some k) :
    cfg.pxsCmax.toNat < 2 ^ (8 * (cfg.bankAt k).n) ∧ cfg.pxsRmax.toNat < 2 ^ (8 * (cfg.bankAt k).n) ∧
      cfg.pxsKmax.toNat < 2 ^ (8 * (cfg.bankAt k).n) := by
  obtain ⟨-, -, -, hpxs, -⟩ := wf
  obtain ⟨-, -, hr, hc, hcolor⟩ := hpxs k (by simp [h])
  exact ⟨hc, hr, hcolor⟩

end Config

namespace Machine

variable {s t : State} {i : Instr} {cfg : Config} {h v : Half} {color : Byte} {k l : Nat} {frames : List (List Byte)}
  {frame : List Byte}

/-! ### The domains -/

/-- The column, the row and the colour each lie between a minimum and a maximum (R191). -/
theorem inDomain_iff {d : PixelDomain} : inDomain d h v color = true ↔
    d.cmin ≤ h.toNat ∧ h.toNat ≤ d.cmax ∧ d.rmin ≤ v.toNat ∧ v.toNat ≤ d.rmax ∧ d.kmin ≤ color ∧ color ≤ d.kmax := by
  simp only [inDomain, Bool.and_eq_true, decide_eq_true_eq, and_assoc]

theorem inDomain_pxsDomain_iff : inDomain (pxsDomain cfg) h v color = true ↔
    cfg.pxsCmin ≤ h ∧ h ≤ cfg.pxsCmax ∧ cfg.pxsRmin ≤ v ∧ v ≤ cfg.pxsRmax ∧
      cfg.pxsKmin ≤ color ∧ color ≤ cfg.pxsKmax :=
  inDomain_iff

/-- On a grid that has a cell, the bounds 0 to W-1 and 0 to H-1 are those of the grid (R196). -/
theorem inDomain_pxbDomain_iff (hw : 1 ≤ cfg.w) (hh : 1 ≤ cfg.h) : inDomain (pxbDomain cfg) h v color = true ↔
    h.toNat < cfg.w ∧ v.toNat < cfg.h ∧ cfg.pxbKmin ≤ color ∧ color ≤ cfg.pxbKmax := by
  simp only [inDomain_iff, pxbDomain, Nat.zero_le, true_and, Nat.le_sub_one_iff_lt hw, Nat.le_sub_one_iff_lt hh]

/-! ### The pixel that is rejected -/

/-- A rejected pixel leaves its diagnostic and the empty response (R191). -/
theorem exec_of_reject (hf : commandFault i s = none) (hsteps : commandSteps s.cfg i = rejectSteps) :
    exec i s = .next { s with
      diag := { s.diag with oor := true }, cp := Cp.idle, trace := [.resp []] :: [.diag .oor] :: s.trace } :=
  exec_of_body (body := [.diag .oor]) hf hsteps

/-- Settles O36: the pixel is not in the writer's domain, so the step list is that of a rejected one. -/
theorem pixelOutOfRangeIsRejected : Obligations.PixelOutOfRangeIsRejected := by
  refine fun s h v color => ⟨fun hbank hout => ?_, fun hio hw hh hout => ?_⟩
  · have hd : ¬ inDomain (pxsDomain s.cfg) h v color = true := by
      simpa only [inDomain_pxsDomain_iff, not_and_or, BitVec.not_le] using hout
    exact exec_of_reject (require_eq_none.mpr hbank) (if_neg hd)
  · have hd : ¬ inDomain (pxbDomain s.cfg) h v color = true := by
      simpa only [inDomain_pxbDomain_iff hw hh, not_and_or, Nat.not_lt, BitVec.not_le] using hout
    exact exec_of_reject (require_eq_none.mpr (by simp [hio])) (if_neg hd)

/-! ### The pixel of the bus-scan writer -/

/-- Settles O37: the pixel is in the writer's domain, so the one access is the write of its cell. -/
theorem busScanPixelWritesTheInactiveCell : Obligations.BusScanPixelWritesTheInactiveCell := by
  intro s h v color cellsWf hio hh hv hmin hmax
  exact ⟨_, exec_pxbWrite_of_inDomain hio (inDomain_pxbDomain hh hv hmin hmax), rfl,
    fun _ => readCell_prim_writePixel cellsWf⟩

/-! ### The pixel of the shift-register writer -/

/-- The pins of a lane show its frame after the shift and the pulse of the group's latch line (R163, R193). -/
theorem pins_lane_of_bankWrite {L : LineId} (hinv : s.Inv) (hk : k < s.cfg.banks.length)
    (hl : l < (s.cfg.bankAt k).lanes) (hL : (s.cfg.groupAt (s.cfg.bankAt k).group).latch = some L)
    (hlanes : (s.cfg.bankAt k).lanes ≤ frames.length) (hframe : frames[l]? = some frame)
    (hlen : frame.length = (s.cfg.bankAt k).n) (hcfg : t.cfg = s.cfg)
    (hdevs : t.devs = s.devs.map fun d => s.committed L
      (s.loaded (s.cfg.groupAt (s.cfg.bankAt k).group).clk (8 * (s.cfg.bankAt k).n)
        (s.laneSent (s.cfg.bankAt k) frames) d)) :
    t.pins (.lane k l) = frameValue frame := by
  obtain ⟨hids, -⟩ := hinv.devices
  have hser := List.getElem?_eq_getElem hl
  refine pins_of_out ?_ (by rw [hcfg, Config.wiring_lane hk hser]; rfl) fun d hd hid => ?_
  · rw [hdevs, List.map_map]
    simpa [Function.comp_def, hids] using Config.lane_mem_devIds.mpr ⟨hk, hl⟩
  · rw [hdevs] at hd
    obtain ⟨d', hd', rfl⟩ := List.mem_map.mp hd
    have hid' : d'.id = .lane k l := by simpa using hid
    rw [out_committed_lane hinv hd' hid' hL loaded_id, sr_loaded_lane hinv hk hd' hid' hlanes hframe hlen]

/-- PXS.WRITE of a pixel in the domain is the bank write of its three fields (R193). -/
theorem commandSteps_pxsWrite_of_inDomain (hbank : cfg.pxsBank = some k)
    (hd : inDomain (pxsDomain cfg) h v color = true) :
    commandSteps cfg (.pxsWrite h v color) =
      bankWriteSteps cfg (cfg.bankAt k) (pixelFrames (cfg.bankAt k).n h v color) ++ [.respond []] := by
  rw [commandSteps, pxsWriteSteps, if_pos hd, pxsBankOf, hbank, Option.getD_some]

theorem length_of_mem_pixelFrames {n : Nat} (hmem : frame ∈ pixelFrames n h v color) : frame.length = n := by
  simp only [pixelFrames, List.mem_cons, List.not_mem_nil, or_false] at hmem
  rcases hmem with rfl | rfl | rfl <;> exact length_field _ _

/-- Settles O38: the run of the shift of the three fields, and then the pulse of the group's latch line or the
diagnostic; each field is within a maximum that fits its frame, so the pins of its lane show it. -/
theorem shiftRegisterPixelCommitsItsFields : Obligations.ShiftRegisterPixelCommitsItsFields := by
  intro s h v color k hinv hidle hbank hcmin hcmax hrmin hrmax hkmin hkmax b frames
  obtain ⟨hk, hthree⟩ := Config.pxsBank_wf hinv.wf hbank
  have hf : commandFault (.pxsWrite h v color) s = none := require_eq_none.mpr (by simp [hbank])
  have hsteps := commandSteps_pxsWrite_of_inDomain hbank
    (inDomain_pxsDomain_iff.mpr ⟨hcmin, hcmax, hrmin, hrmax, hkmin, hkmax⟩)
  have hlanes : b.lanes ≤ frames.length := hthree.le
  have hlen : ∀ frame ∈ frames, frame.length = b.n := fun _ => length_of_mem_pixelFrames
  cases hL : (s.cfg.groupAt b.group).latch with
  | some L =>
    obtain ⟨t, hexec, heq, hlines, hcells, htrace⟩ := (lineRun_bankWrite hinv hidle hk hlanes hlen hL).exec hf hsteps
    obtain ⟨hc, hr, hcolor⟩ := Config.pxsMax_lt hinv.wf hbank
    have hcfg : t.cfg = s.cfg := by rw [heq]
    have hdevs : t.devs = s.devs.map _ := congrArg State.devs heq
    have hpins : ∀ l x, l < 3 → frames[l]? = some (field x b.n) → x < 2 ^ (8 * b.n) → t.pins (.lane k l) = x :=
      fun l x hl hframe hx => (pins_lane_of_bankWrite hinv hk (hl.trans_eq hthree.symm) hL hlanes hframe
        (length_field x b.n) hcfg hdevs).trans (frameValue_field hx)
    refine ⟨t, hexec, hlines, hcells, fun M hM => ?_, nofun⟩
    obtain rfl := Option.some.inj hM
    exact ⟨heq, hpins 0 h.toNat (by decide) rfl (hcmax.trans_lt hc),
      hpins 1 v.toNat (by decide) rfl (hrmax.trans_lt hr),
      hpins 2 color.toNat (by decide) rfl (hkmax.trans_lt hcolor), htrace⟩
  | none =>
    obtain ⟨t, hexec, hlines, hcells, hdiag⟩ :=
      (lineRun_bankShift hinv hidle (Config.bankAt_mem hk) hlanes hlen).exec_noLatch hf
        (hsteps.trans (congrArg (bankShiftSteps s.cfg b frames ++ latchSteps · ++ _) hL))
    exact ⟨t, hexec, hlines, hcells, nofun, fun _ => hdiag⟩

/-! ### The range commands -/

/-- A command whose step list is one response answers it and changes nothing else. -/
theorem exec_of_respond {bs : List Byte} (hf : commandFault i s = none)
    (hsteps : commandSteps s.cfg i = [.respond bs]) :
    exec i s = .next { s with cp := Cp.idle, trace := [.resp bs] :: s.trace } := by
  rw [exec_of_ok hf, hsteps]
  rfl

/-- Settles O39: each range command is one response; the shift-register writer's check the bank first, and the bus-scan
writer's have no check. -/
theorem domainsAreAnswered : Obligations.DomainsAreAnswered := by
  refine fun s => ⟨fun hbank => ?_, fun hbank => ?_, exec_of_respond rfl rfl, exec_of_respond rfl rfl⟩
  · have hcheck : pxsBankCheck s.cfg = none := require_eq_none.mpr hbank
    exact ⟨exec_of_respond hcheck rfl, exec_of_respond hcheck rfl⟩
  · obtain ⟨-, noBankFaults⟩ := badOperandsFault
    obtain ⟨-, harange, hcrange⟩ := noBankFaults s 0 0 0 hbank
    exact ⟨harange, hcrange⟩

end Machine

end Sys2Proof
end

section
/-! SUPPORT. The scan engine (spec/45_scan_loop.md R210 to R213): what each phase does, said once; the part of an
iteration that samples and the part that serves; and what every step of the machine leaves of an iteration still to
do. -/

namespace Sys2Proof

/-- The colour bus names a line once (R8, WF_OWN i). -/
theorem Config.line_nodup_scanC {cfg : Config} (wf : cfg.WF) : cfg.scanC.line.Nodup := by
  obtain ⟨-, -, -, -, houtput, -⟩ := wf
  simp only [outputLines, dataLines, List.nodup_append] at houtput
  obtain ⟨⟨-, hscanC, -⟩, -⟩ := houtput
  exact hscanC

namespace Machine

variable {s t : State}

/-! ### The phases -/

theorem scanStep_of_sH (h : s.sc.phase = .sH) : scanStep s =
    { s with sc := { s.sc with h := s.sampleAddr s.cfg.scanH, phase := .sV } }.emit
      [.busSample s.cfg.scanH.line (s.cfg.scanH.line.map s.sample)] := by
  simp only [scanStep, h]
  rfl

theorem scanStep_of_sV (h : s.sc.phase = .sV) : scanStep s =
    { s with sc := { s.sc with v := s.sampleAddr s.cfg.scanV, phase := .sTest } }.emit
      [.busSample s.cfg.scanV.line (s.cfg.scanV.line.map s.sample)] := by
  simp only [scanStep, h]
  rfl

/-- Outside the grid the iteration ends at the test (R213). -/
theorem scanStep_of_sTest (h : s.sc.phase = .sTest) : scanStep s =
    { s with sc := { s.sc with
      phase := if s.cfg.inGrid s.sc.v.toNat s.sc.h.toNat then .sSel else .sH } }.emit [] := by
  simp only [scanStep, h]

theorem scanStep_of_sSel (h : s.sc.phase = .sSel) : scanStep s =
    { s with sc := { s.sc with snap := s.sel, phase := .sRd } }.emit [.selLoad .scan s.sel] := by
  simp only [scanStep, h]

theorem scanStep_of_sRd (h : s.sc.phase = .sRd) : scanStep s =
    { s with sc := { s.sc with val := s.cell s.sc.snap s.sc.v.toNat s.sc.h.toNat, phase := .sDrv } }.emit
      [.cellRead .scan (s.cfg.cellAddr s.sc.snap s.sc.v.toNat s.sc.h.toNat)
        (s.cell s.sc.snap s.sc.v.toNat s.sc.h.toNat)] := by
  simp only [scanStep, h]
  rfl

theorem scanStep_of_sDrv (h : s.sc.phase = .sDrv) : scanStep s =
    { s with sc := { s.sc with phase := .sH } }.lineWriteAll
      (driveLevels s.cfg.scanC (unpack s.cfg.scanC.n s.sc.val.toNat)) := by
  simp only [scanStep, h]

/-! ### An undisturbed iteration -/

/-- The first two steps of an iteration sample the two address buses (R211, R212). -/
theorem scanStep_iterate_two_of_sH (hph : s.sc.phase = .sH) : scanStep^[2] s = { s with
    sc := { s.sc with h := s.sampleAddr s.cfg.scanH, v := s.sampleAddr s.cfg.scanV, phase := .sTest },
    trace := [.busSample s.cfg.scanV.line (s.cfg.scanV.line.map s.sample)] ::
      [.busSample s.cfg.scanH.line (s.cfg.scanH.line.map s.sample)] :: s.trace } := by
  rw [Function.iterate_succ_apply, Function.iterate_one, scanStep_of_sH hph, scanStep_of_sV rfl]
  rfl

/-- The other four steps, at an address of the grid, drive the cell of the buffer that is active at the selector load
(R212). -/
theorem scanStep_iterate_four_of_sTest (hph : s.sc.phase = .sTest)
    (hgrid : s.cfg.inGrid s.sc.v.toNat s.sc.h.toNat = true) :
    let val := s.cell s.sel s.sc.v.toNat s.sc.h.toNat
    scanStep^[4] s = { s with
      sc := { s.sc with phase := .sH, snap := s.sel, val := val },
      trace := [.cellRead .scan (s.cfg.cellAddr s.sel s.sc.v.toNat s.sc.h.toNat) val] ::
        [.selLoad .scan s.sel] :: [] :: s.trace }.lineWriteAll
      (driveLevels s.cfg.scanC (unpack s.cfg.scanC.n val.toNat)) := by
  rw [Function.iterate_succ_apply, scanStep_of_sTest hph, if_pos hgrid, Function.iterate_succ_apply,
    scanStep_of_sSel rfl, Function.iterate_succ_apply, scanStep_of_sRd rfl, Function.iterate_one, scanStep_of_sDrv rfl]
  rfl

/-- Driving the colour bus: each line takes the bit at its own place (R53, R212). -/
theorem line_drive_scanC (wf : s.cfg.WF) (hlines : Sparse.wf Config.low s.lines) (color : Byte) {i : Nat} {id : LineId}
    (hid : s.cfg.scanC.line[i]? = some id) :
    (s.lineWriteAll (driveLevels s.cfg.scanC (unpack s.cfg.scanC.n color.toNat))).line id = color.getLsbD i := by
  have hnodup := Config.line_nodup_scanC wf
  rw [← getD_unpack_toNat (s := s) color i id (List.getElem?_eq_some_iff.mp hid).1, List.getD_eq_getElem?_getD,
    ← lookup_zip_of_nodup hnodup hid]
  exact Sparse.get_setAll_eq_lookup hlines (nodup_map_fst_zip hnodup _) id

/-- Settles O42: two steps sample the address, four serve it; only the last of them drives lines, those of the colour
bus. -/
theorem scanIterationDrivesTheActiveCell : Obligations.ScanIterationDrivesTheActiveCell := by
  intro s hinv hph h v hgrid t
  have hlines := linesWf_of_inv hinv
  have ht : t = scanStep^[4] (scanStep^[2] s) := Function.iterate_add_apply scanStep 4 2 s
  rw [scanStep_iterate_two_of_sH hph, scanStep_iterate_four_of_sTest rfl hgrid] at ht
  rw [ht]
  refine ⟨rfl, fun i id hid => ?_, fun id hid => ?_, rfl⟩
  · exact line_drive_scanC (s := { s with sc := _, trace := _ }) hinv.wf hlines _ hid
  · exact line_lineWriteAll_of_not_mem hlines fun hmem => hid (fst_zip_subset hmem)

/-- Settles O43: two steps sample the address, and the test ends the iteration. -/
theorem scanHoldsOutsideTheGrid : Obligations.ScanHoldsOutsideTheGrid := by
  intro s hph h v hgrid
  have hout : ¬ s.cfg.inGrid v.toNat h.toNat = true := by simp [hgrid]
  rw [Function.iterate_succ_apply', scanStep_iterate_two_of_sH hph, scanStep_of_sTest rfl, if_neg hout]
  rfl

/-! ### What a scan step depends on -/

/-- The events of driving lines depend on the lines only (R60). -/
theorem driveEvents_congr (h : t.lines = s.lines) (ls : List (LineId × Level)) :
    t.driveEvents ls = s.driveEvents ls := by
  induction ls generalizing s t with
  | nil => rfl
  | cons p ls ih =>
    have hline : t.line p.1 = s.line p.1 := congrArg (Sparse.get Config.low · p.1) h
    have hput : (t.putLine p.1 p.2).lines = (s.putLine p.1 p.2).lines :=
      congrArg (Sparse.set Config.low · p.1 p.2) h
    rw [State.driveEvents, State.driveEvents, hline, ih hput]

/-- Settles O44: no phase looks at what belongs to the command processor, its devices or the host; and what the commands
look at is the same after the step, colour lines apart. -/
theorem scanEngineStaysOnItsSide : Obligations.ScanEngineStaysOnItsSide := by
  refine ⟨fun s f d x c ds ps => ?_, fun s ⟨_, hlines, _⟩ => ?_⟩
  · cases hph : s.sc.phase <;> simp only [scanStep, hph]
    case sDrv =>
      rw [State.lineWriteAll, State.emit]
      congr 1
      exact congrArg (· :: s.trace) (driveEvents_congr (by rfl) _)
    all_goals rfl
  · have same := sameForCommands_scanStep hlines
    obtain ⟨sc, lines, trace, h⟩ := same.exists_eq
    exact ⟨by rw [h], same.levels⟩

/-! ### The scan engine never stops -/

/-- How many steps of the scan engine end the iteration at the latest (R212). -/
def Phase.stepsToHome : Phase → Nat
  | .sH => 0
  | .sV => 5
  | .sTest => 4
  | .sSel => 3
  | .sRd => 2
  | .sDrv => 1

/-- A step of the scan engine inside an iteration brings its end nearer (R212). -/
theorem stepsToHome_scanStep_lt (h : s.sc.phase ≠ .sH) :
    (scanStep s).sc.phase.stepsToHome < s.sc.phase.stepsToHome := by
  cases hph : s.sc.phase with
  | sH => exact absurd hph h
  | sV => simp [scanStep_of_sV hph, Phase.stepsToHome]
  | sTest => rw [scanStep_of_sTest hph, emit_sc]; split <;> simp [Phase.stepsToHome]
  | sSel => simp [scanStep_of_sSel hph, Phase.stepsToHome]
  | sRd => simp [scanStep_of_sRd hph, Phase.stepsToHome]
  | sDrv => simp [scanStep_of_sDrv hph, Phase.stepsToHome]

/-- A command taken to its end leaves the scan engine alone (R210). -/
theorem sc_finishCommand (hb : s.cp.busy = true) (h : finishCommand s = .next t) : t.sc = s.sc := by
  rcases finishCommand_cases hb with ⟨c, -, hfin⟩ | hfin <;> obtain rfl := Host.Outcome.next.inj (hfin.symm.trans h)
  · rfl
  · obtain ⟨-, -, hsc, -⟩ := runPrims_outside s s.remaining
    exact hsc

/-- The whole-command turn leaves the scan engine alone (R210). -/
theorem sc_commandTurn (h : commandTurn s = .next t) : t.sc = s.sc := by
  unfold commandTurn at h
  split at h
  · next hb => exact sc_finishCommand hb h
  · split at h
    · exact Host.Outcome.next.inj h ▸ rfl
    · split at h
      · exact Host.Outcome.next.inj h ▸ rfl
      · next packet rest _ => exact sc_finishCommand (s := s.accept packet rest) rfl h

/-- A step of the command processor, a fault entry too, leaves the scan engine alone (R210, R242). -/
theorem sc_cpStep : (cpStep s).sc = s.sc := by
  rcases cpStep_cases s with h | ⟨c, -, h⟩ | ⟨p, -, -, h⟩ | ⟨packet, rest, -, h⟩ <;> rw [h]
  · rfl
  · obtain ⟨-, -, hsc, -⟩ := prim_outside (s := s) p
    exact hsc
  · rfl

/-- No turn of another agent, a reset included, puts off the end of an iteration (R210, R261). -/
theorem stepsToHome_takeTurn_le {turn : Turn} (hturn : turn ≠ .scan) (h : takeTurn turn s = .next t) :
    t.sc.phase.stepsToHome ≤ s.sc.phase.stepsToHome := by
  cases turn with
  | command => rw [sc_commandTurn h]
  | cp => rw [← Host.Outcome.next.inj h, sc_cpStep]
  | scan => exact absurd rfl hturn
  | env levels => rw [← Host.Outcome.next.inj h]; rfl
  | reset cfg d =>
    rw [takeTurn, resetStep] at h
    split at h
    · rw [← Host.Outcome.next.inj h]; exact Nat.zero_le _
    · cases h

section Run

variable {r : Nat → State} {turns : Nat → Turn} {offers : Nat → List Packet} {n m : Nat}

/-- A step of a run is the turn chosen for it, and what the outside offers does not touch the scan engine. -/
theorem IsRun.exists_takeTurn (hrun : IsRun r turns offers) (n : Nat) :
    ∃ s, s.sc = (r n).sc ∧ takeTurn (turns n) s = .next (r (n + 1)) :=
  ⟨((r n).driven (turns n) (offers n)).begun, rfl, hrun n⟩

/-- In a run, a turn of the scan engine inside an iteration brings the end nearer. -/
theorem IsRun.stepsToHome_succ_lt (hrun : IsRun r turns offers) (hturn : turns n = .scan) (hph : (r n).sc.phase ≠ .sH) :
    (r (n + 1)).sc.phase.stepsToHome < (r n).sc.phase.stepsToHome := by
  obtain ⟨s, hsc, h⟩ := hrun.exists_takeTurn n
  rw [hturn] at h
  rw [← hsc] at hph ⊢
  exact Host.Outcome.next.inj h ▸ stepsToHome_scanStep_lt hph

/-- In a run, no step inside an iteration puts its end off. -/
theorem IsRun.stepsToHome_succ_le (hrun : IsRun r turns offers) (hph : (r n).sc.phase ≠ .sH) :
    (r (n + 1)).sc.phase.stepsToHome ≤ (r n).sc.phase.stepsToHome := by
  by_cases hturn : turns n = .scan
  · exact (hrun.stepsToHome_succ_lt hturn hph).le
  · obtain ⟨s, hsc, h⟩ := hrun.exists_takeTurn n
    exact hsc ▸ stepsToHome_takeTurn_le hturn h

/-- While a run does not come to S_H, the end of the iteration is not put off. -/
theorem IsRun.stepsToHome_le (hrun : IsRun r turns offers) (hnm : n ≤ m)
    (hph : ∀ i, n ≤ i → (r i).sc.phase ≠ .sH) :
    (r m).sc.phase.stepsToHome ≤ (r n).sc.phase.stepsToHome := by
  induction m, hnm using Nat.le_induction with
  | base => exact le_rfl
  | succ m hm ih => exact (hrun.stepsToHome_succ_le (hph m hm)).trans ih

end Run

/-- Settles O47, by strong induction on the steps that the iteration has left: were the engine never again at S_H, the
next turn that fairness gives it would leave fewer. -/
theorem scanEngineNeverStops : Obligations.ScanEngineNeverStops := by
  intro r turns offers hrun ⟨hscan, _⟩ n
  induction hk : (r n).sc.phase.stepsToHome using Nat.strong_induction_on generalizing n with
  | _ k ih =>
    by_contra! hnever
    obtain ⟨m, hnm, hturn⟩ := hscan n
    have hfewer : (r (m + 1)).sc.phase.stepsToHome < k :=
      calc (r (m + 1)).sc.phase.stepsToHome
        _ < (r m).sc.phase.stepsToHome := hrun.stepsToHome_succ_lt hturn (hnever m hnm)
        _ ≤ k := hk ▸ hrun.stepsToHome_le hnm hnever
    obtain ⟨i, hmi, hhome⟩ := ih _ hfewer (m + 1) rfl
    exact hnever i (by omega) hhome

end Machine

end Sys2Proof
end

section
/-! SUPPORT. The status registers (spec/10_state.md R25 to R29, spec/46_system.md R220): a byte made of at most eight bits
loses none of them, so each register reads as the sum of its bits at their positions. -/

namespace Sys2Proof

theorem pack_lt (bits : List Level) : pack bits < 2 ^ bits.length := by
  induction bits with
  | nil => exact Nat.one_pos
  | cons b bits ih =>
    have hb := b.toNat_le
    simp only [pack, List.length_cons, Nat.pow_succ]
    omega

namespace Machine

variable {s : State} {reg : Byte}

theorem toNat_byteOf {bits : List Bool} (h : bits.length ≤ 8) : (byteOf bits).toNat = pack bits :=
  Nat.mod_eq_of_lt ((pack_lt bits).trans_le (Nat.pow_le_pow_right Nat.two_pos h))

theorem toNat_selByte (a : Bool) : (selByte a).toNat = a.toNat := toNat_byteOf (bits := [a]) (by simp)

theorem toNat_diagByte (d : DiagReg) :
    (diagByte d).toNat = d.noLatch.toNat + 2 * d.noClear.toNat + 4 * d.oor.toNat := by
  rw [diagByte, toNat_byteOf (by simp)]
  simp only [pack]
  omega

theorem toNat_txnByte (t : TxnReg) :
    (txnByte t).toNat = t.ao.toNat + 2 * t.io.toNat + 4 * t.asnap.toNat + 8 * t.wsnap.toNat := by
  rw [txnByte, toNat_byteOf (by simp)]
  simp only [pack]
  omega

/-- V and the four bits of CAUSE fit a byte (R28). -/
theorem toNat_faultByte (f : FaultReg) : (faultByte f).toNat = 128 * f.v.toNat + f.cause.toNat := by
  have hv := f.v.toNat_le
  have hcause := f.cause.isLt
  rw [faultByte, BitVec.toNat_ofNat, Nat.mod_eq_of_lt (by omega), Nat.mul_comm]

/-- Of a register that exists, SYS.RDREG is the one response with its byte. -/
theorem exec_sysRdreg_of_le (h : reg.toNat ≤ 3) : exec (.sysRdreg reg) s = .next { s with
    cp := Cp.idle, trace := [.resp [s.statusReg reg.toNat]] :: s.trace } :=
  exec_of_ok (require_eq_none.mpr (decide_eq_true h))

/-- The register number is the one operand that SYS.RDREG checks (R88). -/
theorem exec_sysRdreg_of_lt (h : 3 < reg.toNat) :
    exec (.sysRdreg reg) s = .next (s.raiseFault .illegalCommand) :=
  exec_of_fault (require_eq_some.mpr ⟨decide_eq_false h.not_ge, rfl⟩)

/-- Settles O41: the register number passes the one check or fails it, and each register's byte is the sum of its bits. -/
theorem statusRegistersAreRead : Obligations.StatusRegistersAreRead := fun s =>
  ⟨fun _ => exec_sysRdreg_of_le, fun _ => exec_sysRdreg_of_lt, toNat_selByte s.sel, toNat_diagByte s.diag,
    toNat_faultByte s.fault, toNat_txnByte s.txn⟩

end Machine

end Sys2Proof
end

section
/-! SUPPORT. Faults (spec/60_exceptions.md R231 to R242): what no step but a reset does to a processor that a fault has
halted, and the checks of a width and of an index that raise one. -/

namespace Sys2Proof.Machine

variable {s t : State} {b : Bus} {u : Byte} {row col : Half}

/-! ### The halted processor -/

/-- A halted processor accepts no packet (R242). -/
theorem cpStep_of_halted (hv : s.fault.v = true) (hb : s.cp.busy = false) : cpStep s = s := by
  simp [cpStep, hb, hv]

theorem commandTurn_of_halted (hv : s.fault.v = true) (hb : s.cp.busy = false) : commandTurn s = .next s := by
  simp [commandTurn, hb, hv]

/-- Nothing of the command processor, the packets offered to it, the registers, the cells or the devices has changed. -/
def CommandSideKept (s t : State) : Prop :=
  t.fault = s.fault ∧ t.cp = s.cp ∧ t.host = s.host ∧ t.fb = s.fb ∧ t.sel = s.sel ∧ t.diag = s.diag ∧
  t.txn = s.txn ∧ t.devs = s.devs

theorem commandSideKept_refl (s : State) : CommandSideKept s s := ⟨rfl, rfl, rfl, rfl, rfl, rfl, rfl, rfl⟩

/-- The scan engine reads cells and the selector, and writes lines and its own state (R60, R212). -/
theorem commandSideKept_scanStep (s : State) : CommandSideKept s (scanStep s) := by
  unfold scanStep
  split <;> exact ⟨rfl, rfl, rfl, rfl, rfl, rfl, rfl, rfl⟩

/-- While the processor is halted, no turn but a reset changes anything on its side (R242). -/
theorem commandSideKept_takeTurn {turn : Turn} (hv : s.fault.v = true) (hb : s.cp.busy = false)
    (hn : turn.isReset = false) (h : takeTurn turn s = .next t) : CommandSideKept s t := by
  cases turn with
  | command =>
    rw [takeTurn, commandTurn_of_halted hv hb] at h
    exact Host.Outcome.next.inj h ▸ commandSideKept_refl s
  | cp =>
    rw [takeTurn, cpStep_of_halted hv hb] at h
    exact Host.Outcome.next.inj h ▸ commandSideKept_refl s
  | scan => exact Host.Outcome.next.inj h ▸ commandSideKept_scanStep s
  | env levels => exact Host.Outcome.next.inj h ▸ ⟨rfl, rfl, rfl, rfl, rfl, rfl, rfl, rfl⟩
  | reset cfg draw => cases hn

/-- A step of the scan engine is what it would have been without the fault, but for the trace (R210, R242). -/
theorem scanStep_of_faulted (f : FaultReg) :
    ({ scanStep { s with fault := f, cp := Cp.idle } with trace := [] } : State) =
      { scanStep s with fault := f, cp := Cp.idle, trace := [] } := by
  obtain ⟨-, -, hhost, -, -, hdiag, htxn, hdevs⟩ := commandSideKept_scanStep s
  rw [scanEngineStaysOnItsSide.1 s f s.diag s.txn Cp.idle s.devs s.host]
  simp only [hhost, hdiag, htxn, hdevs]

/-- Settles O10: a failing check and a packet that does not decode raise the fault, and the processor it halts neither
moves nor is touched by another agent. -/
theorem faultEntryHaltsTheProcessor : Obligations.FaultEntryHaltsTheProcessor := by
  refine ⟨fun _ _ _ => exec_of_fault, fun s c hb hd => ?_, fun s t hv hb hn h => ?_, fun _ _ => scanStep_of_faulted _⟩
  · rw [cpStep, if_pos hb, hd]
    rfl
  · exact commandSideKept_takeTurn (s := s.begun) hv hb hn h

/-! ### The width of a bus -/

/-- On a unit that exists, the check that fails is the one of the width (R173, R232, R233). -/
theorem firstFault_unit_wide {count k : Nat} {c : Cause} (hu : u.toNat < count) (hn : k < b.n) :
    firstFault [unitCheck u count, widthCheck b k c] = some c := by
  rw [unitCheck_eq_none.mpr hu, widthCheck, decide_eq_false hn.not_ge]
  rfl

/-- Settles O11: the 8 and 16 bit accessors check the width after the unit, the 32-bit accessors the unit only. -/
theorem widthPreconditionsFault : Obligations.WidthPreconditionsFault :=
  ⟨rfl, rfl, fun _ _ _ _ _ =>
    ⟨fun hu =>
      ⟨fun hn => exec_of_fault (firstFault_unit_wide hu hn),
        fun hn => exec_of_fault (firstFault_unit_wide hu hn),
        unitCheck_eq_none.mpr hu⟩,
    fun hu =>
      ⟨fun hn => exec_of_fault (firstFault_unit_wide hu hn),
        fun hn => exec_of_fault (firstFault_unit_wide hu hn),
        unitCheck_eq_none.mpr hu⟩⟩⟩

/-! ### The index of a cell -/

/-- With the transaction open, the check that fails outside the grid is the one of the index (R112, R113, R238). -/
theorem firstFault_open_outside {cfg : Config} {isOpen : Bool} (hopen : isOpen = true)
    (hout : cfg.h ≤ row.toNat ∨ cfg.w ≤ col.toNat) :
    firstFault [require isOpen .protocol, require (cfg.inGrid row.toNat col.toNat) .index] = some .index := by
  have hgrid : cfg.inGrid row.toNat col.toNat = false := by
    rw [← Bool.not_eq_true, Config.inGrid_iff]
    omega
  rw [hopen, hgrid]
  rfl

/-- Settles O12: the three raw cell commands make the same two checks, the second of which fails. -/
theorem indexOutsideTheGridFaults : Obligations.IndexOutsideTheGridFaults :=
  ⟨rfl, fun _ _ _ _ hout =>
    ⟨fun hao => exec_of_fault (firstFault_open_outside hao hout),
      fun hio => exec_of_fault (firstFault_open_outside hio hout),
      fun hio => exec_of_fault (firstFault_open_outside hio hout)⟩⟩

end Sys2Proof.Machine
end

section
/-! SUPPORT. Reset (spec/70_reset_and_hazards.md R260 to R267): what the event answers in any state, the invariant of the
state it leaves, and the values that state holds. -/

namespace Sys2Proof.Machine

variable {s : State} {cfg : Config} {id : LineId}

/-! ### The event -/

theorem resetStep_of_wf (wf : cfg.WF) (d : Draw) (s : State) : resetStep cfg d s = .next { State.resetWith cfg d with
    inputs := s.inputs, host := s.host, agenda := s.agenda, moment := s.moment } := if_pos wf

/-- An ill-formed configuration has no reset state (R8, R267). -/
theorem resetStep_of_not_wf (h : ¬ cfg.WF) (d : Draw) (s : State) : resetStep cfg d s = .refused .illFormedConfig :=
  if_neg h

/-- Settles O60: whatever the state, the step is the reset event, which keeps what the outside holds. -/
theorem resetIsTheExitFromAnyState : Obligations.ResetIsTheExitFromAnyState := by
  intro s cfg d hturn
  rw [step, hturn, takeTurn]
  exact ⟨fun wf => resetStep_of_wf wf d s.begun, fun h => resetStep_of_not_wf h d s.begun⟩

/-! ### The invariant -/

/-- The configuration RI is well-formed (R9). -/
theorem wf_ri : Config.ri.WF := by decide

/-- Settles O54: State.reset is the state after a reset with RI, which is well-formed. -/
theorem resetMeetsTheInvariant : Obligations.ResetMeetsTheInvariant :=
  ⟨fun _ d wf => inv_resetWith wf d, inv_resetWith wf_ri Draw.zero⟩

/-! ### The values -/

/-- The two buffers hold INIT at the same places (R31, R50). -/
theorem initCell_cellAddr (cfg : Config) (b : Bool) (r c : Nat) :
    cfg.initCell (cfg.cellAddr b r c) = cfg.initCell (r * cfg.w + c) := by
  have hmod : cfg.cellAddr b r c % (cfg.h * cfg.w) = (r * cfg.w + c) % (cfg.h * cfg.w) := by
    rw [Config.cellAddr, Nat.add_assoc, Nat.mul_add_mod_self_right]
  rw [Config.initCell, Config.initCell, hmod]

/-- No line has two levels at reset: data lines and clear lines have each one place (R8, WF_OWN). -/
theorem nodup_resetLevels (wf : cfg.WF) (drawn : List (LineId × Level)) :
    ((cfg.dataLines.map (fun id => (id, Sparse.get Config.low drawn id)) ++
      cfg.clearLines.map fun p => (p.1, !p.2)).map Prod.fst).Nodup := by
  obtain ⟨-, -, -, -, houtput, -⟩ := wf
  have hsub : (cfg.dataLines ++ cfg.clearLines.map Prod.fst).Sublist cfg.outputLines :=
    (List.Sublist.refl _).append (List.sublist_append_right _ _)
  simpa [Function.comp_def] using houtput.sublist hsub

/-- A data line has the level drawn for it (R33, R262). -/
theorem line_resetWith_of_mem_dataLines (wf : cfg.WF) (d : Draw) (h : id ∈ cfg.dataLines) :
    (State.resetWith cfg d).line id = Sparse.get Config.low d.lines id :=
  Sparse.get_setAll_of_mem Sparse.wf_nil (nodup_resetLevels wf d.lines)
    (List.mem_append_left _ (List.mem_map_of_mem h))

/-- Settles O59: no cell is listed, so each reads as INIT; the lines are those of the two lemmas on reset levels; all else
stands in the reset state as it is. -/
theorem resetLeavesTheSpecsValues : Obligations.ResetLeavesTheSpecsValues := fun cfg d wf =>
  ⟨rfl, initCell_cellAddr cfg, controlIdle_resetWith wf d, fun _ => line_resetWith_of_mem_dataLines wf d, rfl, rfl, rfl,
    rfl⟩

end Sys2Proof.Machine
end

section
/-! SUPPORT. The discipline of A_QUIESCE (spec/70_reset_and_hazards.md R271): a step changes only cells whose writes it
traces, so what the scan engine reads, nothing written in the buffer it loaded, is the cell as it was at its load. -/

namespace Sys2Proof.Machine

variable {s t u : State} {a : Nat}

/-! ### The step, by the agent that moves -/

/-- No step but a reset changes the configuration (R260). -/
theorem cfg_step (hn : s.NoReset) (h : step s = .next t) : t.cfg = s.cfg := (linesTraced_stepClosed.step hn h).cfg

theorem step_of_scan (hturn : s.turn = .scan) (h : step s = .next t) : t = scanStep s.begun := by
  rw [step, hturn] at h
  exact (Host.Outcome.next.inj h).symm

/-- No turn of another agent but a reset touches the scan engine (R60, R210). -/
theorem sc_takeTurn {turn : Turn} (hturn : turn ≠ .scan) (hn : turn.isReset = false) (h : takeTurn turn s = .next t) :
    t.sc = s.sc := by
  cases turn with
  | command => exact sc_commandTurn h
  | cp => rw [← Host.Outcome.next.inj h, sc_cpStep]
  | scan => exact absurd rfl hturn
  | env levels => rw [← Host.Outcome.next.inj h]; rfl
  | reset cfg d => cases hn

theorem sc_step (hturn : s.turn ≠ .scan) (hn : s.NoReset) (h : step s = .next t) : t.sc = s.sc :=
  sc_takeTurn (s := s.begun) hturn hn h

/-! ### Cells move with their events -/

/-- t holds the configuration and the cells that the events since s, written over the cells of s, leave (R12). -/
structure CellsFollow (s t : State) : Prop where
  cfg    : t.cfg = s.cfg
  wf     : Sparse.wf t.cfg.initCell t.fb
  events : ∃ es, t.events = es ++ s.events ∧ ∀ a, t.readCell a = (lastWrite a es).getD (s.readCell a)

theorem cellsFollow_refl (wf : Sparse.wf s.cfg.initCell s.fb) : CellsFollow s s := ⟨rfl, wf, [], rfl, fun _ => rfl⟩

/-- Every change of the memory writes the cell that its event names, or none (R12). -/
theorem CellsFollow.memStep (hm : MemStep t u) (h : CellsFollow s t) : CellsFollow s u := by
  obtain ⟨hcfg, hwf, es, hes, hcells⟩ := h
  cases hm with
  | read es' cfg fb sel events reads =>
    refine ⟨cfg.trans hcfg, by rwa [cfg, fb], es' ++ es, by rw [events, hes, List.append_assoc], fun a => ?_⟩
    rw [readCell_congr cfg fb, hcells, lastWrite_append_of_reads reads]
  | write a v cfg fb sel events =>
    refine ⟨cfg.trans hcfg, by rw [cfg, fb]; exact Sparse.wf_set hwf, .cellWrite a v :: es, by rw [events, hes]; rfl,
      fun a' => ?_⟩
    rw [readCell_congr (s := t.putCell a v) cfg fb]
    by_cases ha : a = a'
    · subst ha
      exact (Sparse.get_set_self hwf).trans (by simp [lastWrite])
    · rw [lastWrite_cons_of_ne ha, ← hcells]
      exact Sparse.get_set_of_ne hwf (Ne.symm ha)
  | store cfg fb sel events =>
    refine ⟨cfg.trans hcfg, by rwa [cfg, fb], .selStore (!t.sel) :: es, by rw [events, hes]; rfl, fun a => ?_⟩
    rw [readCell_congr cfg fb, hcells]
    rfl

/-- The events after a step but a reset are its own, then those before it. -/
theorem events_step (hinv : s.Inv) (hn : s.NoReset) (h : step s = .next t) : t.events = newEvents s t ++ s.events := by
  obtain ⟨groups, htr, -⟩ := (linesTraced_stepClosed.step hn h).traced (linesWf_of_inv hinv)
  rw [newEvents_of_append htr, State.events, htr, List.flatten_append]
  rfl

/-- A step but a reset keeps every cell whose write is not among its events (R12, R16). -/
theorem readCell_step (hinv : s.Inv) (hn : s.NoReset) (h : step s = .next t)
    (hquiet : ∀ v, .cellWrite a v ∉ newEvents s t) : t.readCell a = s.readCell a := by
  obtain ⟨⟨wf, -⟩, -⟩ := hinv.canonical
  have closed := stepClosed_of_memStep (P := CellsFollow s) fun _ _ => CellsFollow.memStep
  obtain ⟨es, hes, hcells⟩ := (closed.step hn h (cellsFollow_refl wf)).events
  obtain rfl : es = newEvents s t := List.append_cancel_right (hes.symm.trans (events_step hinv hn h))
  rw [hcells, lastWrite_eq_none.mpr hquiet, Option.getD_none]

/-! ### The reader between its load and its read -/

/-- A cell of the grid lies in its buffer (R50). -/
theorem inBuffer_cellAddr {cfg : Config} {r c : Nat} (b : Bool) (h : cfg.inGrid r c = true) :
    inBuffer cfg b (cfg.cellAddr b r c) := by
  have hlt := Config.offset_lt h
  rw [inBuffer, Config.cellAddr, Nat.add_mul, Nat.one_mul]
  omega

/-- t is a state of the block at S_RD, after the selector load of s, and the cell to be read is as it was in s. -/
structure LoadedFrom (s t : State) : Prop where
  inv  : t.Inv
  cfg  : t.cfg = s.cfg
  sc   : t.sc = { s.sc with snap := s.sel, phase := .sRd }
  cell : t.cell s.sel s.sc.v.toNat s.sc.h.toNat = s.cell s.sel s.sc.v.toNat s.sc.h.toNat

theorem loadedFrom_of_load (hinv : s.Inv) (hturn : s.turn = .scan) (hph : s.sc.phase = .sSel) (h : step s = .next t) :
    LoadedFrom s t := by
  have hinvt := everyStepKeepsTheInvariant s t hinv h
  obtain rfl := step_of_scan hturn h
  rw [scanStep_of_sSel (s := s.begun) hph] at hinvt ⊢
  exact ⟨hinvt, rfl, rfl, rfl⟩

/-- A quiet step of another agent writes no cell of the buffer loaded, so not the one to be read (R271). -/
theorem LoadedFrom.of_step (hl : LoadedFrom s t) (hturn : t.turn ≠ .scan) (hn : t.NoReset) (hq : Quiesces t u)
    (h : step t = .next u) : LoadedFrom s u := by
  obtain ⟨hinv, hcfg, hsc, hcell⟩ := hl
  have hgrid : t.cfg.inGrid s.sc.v.toNat s.sc.h.toNat = true := by simpa [State.ScanInGrid, hsc] using hinv.scan
  have hcfg' := cfg_step hn h
  refine ⟨everyStepKeepsTheInvariant t u hinv h, hcfg'.trans hcfg, (sc_step hturn hn h).trans hsc, ?_⟩
  rw [← hcell, State.cell, State.cell, hcfg']
  refine readCell_step hinv hn h fun v hv => (hq _ v hv).1 (by rw [hsc]) ?_
  rw [hsc]
  exact inBuffer_cellAddr s.sel hgrid

/-- The read returns the cell as it was at the load (R212). -/
theorem LoadedFrom.val_eq (hl : LoadedFrom s t) (hturn : t.turn = .scan) (h : step t = .next u) :
    u.sc.val = s.cell s.sel s.sc.v.toNat s.sc.h.toNat := by
  obtain rfl := step_of_scan hturn h
  have hph : t.begun.sc.phase = .sRd := by rw [begun_sc, hl.sc]
  rw [scanStep_of_sRd hph, ← hl.cell, emit_sc, begun_sc, hl.sc]
  rfl

/-- Settles O53: the load leaves the scan engine at S_RD with the cell as it is, and every step up to the read, of another
agent and quiet, keeps both. -/
theorem quietReaderSeesTheLoadedFrame : Obligations.QuietReaderSeesTheLoadedFrame := by
  intro r n hpos hinv hturn hph hrun hothers hread
  have loaded : ∀ i, 1 ≤ i → i ≤ n → LoadedFrom (r 0) (r i) := fun i h1 => by
    induction i, h1 using Nat.le_induction with
    | base => exact fun _ => loadedFrom_of_load hinv hturn hph (hrun 0 (Nat.zero_le n)).1
    | succ i h1 ih =>
      intro hin
      obtain ⟨hstep, hq, hn⟩ := hrun i (by omega)
      exact (ih (by omega)).of_step (hothers i h1 hin) hn hq hstep
  exact (loaded n hpos le_rfl).val_eq hread (hrun n le_rfl).1

end Sys2Proof.Machine
end

section
/-! SUPPORT. The discipline of A_DWELL (spec/70_reset_and_hazards.md R275): what the scan engine has sampled in an
iteration is what the address lines still carry, and a whole iteration at an address of the grid drives its cell. -/

namespace Sys2Proof.Machine

variable {s t u : State}

/-! ### The address sampled -/

/-- What the scan engine has sampled in this iteration is what the address lines carry (R212, R275). -/
structure State.AddressCurrent (s : State) : Prop where
  h : s.sc.phase ≠ .sH → s.sc.h = s.sampleAddr s.cfg.scanH
  v : s.sc.phase ≠ .sH → s.sc.phase ≠ .sV → s.sc.v = s.sampleAddr s.cfg.scanV

/-- Before its first sample, an iteration has sampled nothing. -/
theorem addressCurrent_of_sH (h : s.sc.phase = .sH) : s.AddressCurrent := ⟨absurd h, absurd h⟩

/-- An address is its lines' levels (R211). -/
theorem sameAddress_of_levels (hcfg : t.cfg = s.cfg) (h : ∀ id ∈ addressLines s.cfg, t.sample id = s.sample id) :
    SameAddress s t := by
  have hsample : ∀ b : Bus, b.line ⊆ addressLines s.cfg → t.sampleAddr b = s.sampleAddr b := fun b hb => by
    rw [State.sampleAddr, State.sampleAll, List.map_congr_left fun id hid => h id (hb hid)]
    rfl
  rw [SameAddress, hcfg]
  exact ⟨hsample _ (List.subset_append_left _ _), hsample _ (List.subset_append_right _ _)⟩

/-- The address is sampled as the lines carry it, and no phase but S_DRV, which ends the iteration, drives a line
(R212). -/
theorem addressCurrent_scanStep (hs : s.AddressCurrent) : (scanStep s).AddressCurrent := by
  cases hph : s.sc.phase <;> simp only [scanStep, hph]
  case sH => exact ⟨fun _ => rfl, fun _ h => absurd rfl h⟩
  case sV => exact ⟨fun _ => hs.h (by simp [hph]), fun _ _ => rfl⟩
  case sDrv => exact addressCurrent_of_sH rfl
  all_goals exact ⟨fun _ => hs.h (by simp [hph]), fun _ _ => hs.v (by simp [hph]) (by simp [hph])⟩

/-- A step but a reset that moves no address line inside an iteration keeps the sampled address current: the scan engine
moves no address line, and another agent leaves what is sampled (R275). -/
theorem addressCurrent_step (hn : s.NoReset) (hd : Dwells s t) (h : step s = .next t) (hs : s.AddressCurrent) :
    t.AddressCurrent := by
  by_cases hturn : s.turn = .scan
  · exact step_of_scan hturn h ▸ addressCurrent_scanStep (s := s.begun) ⟨hs.h, hs.v⟩
  · have hsc := sc_step hturn hn h
    by_cases hph : s.sc.phase = .sH
    · exact addressCurrent_of_sH (hsc ▸ hph)
    · obtain ⟨hH, hV⟩ := sameAddress_of_levels (cfg_step hn h) (hd hph)
      exact ⟨fun hp => by rw [hH, hsc]; exact hs.h hph, fun hp hpV => by rw [hV, hsc]; exact hs.v hph (hsc ▸ hpV)⟩

/-! ### The value read -/

/-- A step of the scan engine to S_DRV is the read (R212). -/
theorem scanStep_to_sDrv (hph : (scanStep s).sc.phase = .sDrv) : s.sc.phase = .sRd := by
  cases hb : s.sc.phase with
  | sRd => rfl
  | sTest => rw [scanStep_of_sTest hb, emit_sc] at hph; split at hph <;> cases hph
  | sH => simp [scanStep_of_sH hb] at hph
  | sV => simp [scanStep_of_sV hb] at hph
  | sSel => simp [scanStep_of_sSel hb] at hph
  | sDrv => simp [scanStep_of_sDrv hb] at hph

/-- A step but a reset that leads to S_DRV is the read, or leaves what was read (R212). -/
theorem step_to_sDrv (hn : s.NoReset) (h : step s = .next t) (hph : t.sc.phase = .sDrv) :
    (s.turn = .scan ∧ s.sc.phase = .sRd ∧ t.sc.val = s.cell t.sc.snap t.sc.v.toNat t.sc.h.toNat) ∨ t.sc = s.sc := by
  by_cases hturn : s.turn = .scan
  · obtain rfl := step_of_scan hturn h
    have hread : s.begun.sc.phase = .sRd := scanStep_to_sDrv hph
    rw [scanStep_of_sRd hread]
    exact .inl ⟨hturn, hread, rfl⟩
  · exact .inr (sc_step hturn hn h)

/-- A step of the scan engine to S_H is the drive, or the test of an address outside the grid (R212, R213). -/
theorem scanStep_to_sH (hph : (scanStep s).sc.phase = .sH) :
    s.sc.phase = .sDrv ∨ (s.sc.phase = .sTest ∧ s.cfg.inGrid s.sc.v.toNat s.sc.h.toNat = false) := by
  cases hb : s.sc.phase with
  | sDrv => exact .inl rfl
  | sTest =>
    refine .inr ⟨rfl, Bool.eq_false_iff.mpr fun hgrid => ?_⟩
    rw [scanStep_of_sTest hb, if_pos hgrid] at hph
    cases hph
  | sH => simp [scanStep_of_sH hb] at hph
  | sV => simp [scanStep_of_sV hb] at hph
  | sSel => simp [scanStep_of_sSel hb] at hph
  | sRd => simp [scanStep_of_sRd hb] at hph

/-- In S_DRV each colour line takes its bit of the value read (R212). -/
theorem line_scanStep_of_sDrv (hinv : s.Inv) (hph : s.sc.phase = .sDrv) {i : Nat} {id : LineId}
    (hid : s.cfg.scanC.line[i]? = some id) : (scanStep s).line id = s.sc.val.getLsbD i := by
  rw [scanStep_of_sDrv hph]
  exact line_drive_scanC (s := { s with sc := _ }) hinv.wf (linesWf_of_inv hinv) s.sc.val hid

/-! ### Runs without a reset -/

section Run

variable {r : Nat → State} {turns : Nat → Turn} {offers : Nat → List Packet} {b e i n m : Nat}

theorem inv_driven (h : s.Inv) (turn : Turn) (offered : List Packet) : (s.driven turn offered).Inv :=
  ⟨h.wf, h.canonical, h.devices, h.txn, h.fault, h.scan⟩

variable (hrun : IsRun r turns offers) (hn : ∀ n, (turns n).isReset = false)
include hrun

theorem IsRun.succ_of_scan (hturn : turns n = .scan) :
    r (n + 1) = scanStep ((r n).driven (turns n) (offers n)).begun :=
  step_of_scan (s := (r n).driven (turns n) (offers n)) hturn (hrun n)

theorem IsRun.inv (hinv : (r 0).Inv) (n : Nat) : (r n).Inv := by
  induction n with
  | zero => exact hinv
  | succ n ih => exact everyStepKeepsTheInvariant _ _ (inv_driven ih (turns n) (offers n)) (hrun n)

include hn

theorem IsRun.cfg_succ (n : Nat) : (r (n + 1)).cfg = (r n).cfg :=
  cfg_step (s := (r n).driven (turns n) (offers n)) (hn n) (hrun n)

theorem IsRun.sc_succ (hturn : turns n ≠ .scan) : (r (n + 1)).sc = (r n).sc :=
  sc_step (s := (r n).driven (turns n) (offers n)) hturn (hn n) (hrun n)

/-- While no step changes an address line, the lines carry one address (R275). -/
theorem IsRun.sameAddress (hnm : n ≤ m) (hstay : ∀ i, n ≤ i → i < m → ¬ AddressMoves (r i) (r (i + 1))) :
    SameAddress (r n) (r m) := by
  induction m, hnm using Nat.le_induction with
  | base => exact ⟨rfl, rfl⟩
  | succ m hm ih =>
    obtain ⟨hH, hV⟩ := ih fun i hi him => hstay i hi (by omega)
    have hlevels : ∀ id ∈ addressLines (r m).cfg, (r (m + 1)).sample id = (r m).sample id := by
      simpa [AddressMoves] using hstay m hm (by omega)
    obtain ⟨hH', hV'⟩ := sameAddress_of_levels (hrun.cfg_succ hn m) hlevels
    exact ⟨hH'.trans hH, hV'.trans hV⟩

theorem IsRun.cfg_eq (n : Nat) : (r n).cfg = (r 0).cfg := by
  induction n with
  | zero => rfl
  | succ n ih => exact (hrun.cfg_succ hn n).trans ih

theorem IsRun.addressInGrid_iff (h : SameAddress (r n) (r m)) : AddressInGrid (r m) ↔ AddressInGrid (r n) := by
  obtain ⟨hH, hV⟩ := h
  rw [AddressInGrid, AddressInGrid, hH, hV, hrun.cfg_eq hn m, hrun.cfg_eq hn n]

/-! ### A whole iteration -/

/-- From S_H on, under A_DWELL, the sampled address is current (R275). -/
theorem IsRun.addressCurrent (hd : ∀ n, Dwells (r n) (r (n + 1))) (hb : (r b).sc.phase = .sH) (hbi : b ≤ i) :
    (r i).AddressCurrent := by
  induction i, hbi using Nat.le_induction with
  | base => exact addressCurrent_of_sH hb
  | succ i _ ih =>
    exact addressCurrent_step (s := (r i).driven (turns i) (offers i)) (hn i) (hd i) (hrun i) ⟨ih.h, ih.v⟩

/-- From S_H on, whatever is driven at S_DRV was read at the S_RD step before (R212). -/
theorem IsRun.exists_read (hb : (r b).sc.phase = .sH) (hbi : b ≤ i) (hi : (r i).sc.phase = .sDrv) :
    ∃ d, d < i ∧ turns d = .scan ∧ (r d).sc.phase = .sRd ∧ (∀ j, d < j → j ≤ i → (r j).sc.phase = .sDrv) ∧
      (r i).sc.val = (r d).cell (r i).sc.snap (r i).sc.v.toNat (r i).sc.h.toNat := by
  induction i, hbi using Nat.le_induction with
  | base => exact absurd (hb.symm.trans hi) nofun
  | succ i _ ih =>
    rcases step_to_sDrv (s := (r i).driven (turns i) (offers i)) (hn i) (hrun i) hi with ⟨hturn, hph, hval⟩ | hsc
    · refine ⟨i, by omega, hturn, hph, fun j hij hji => ?_, hval⟩
      obtain rfl : j = i + 1 := by omega
      exact hi
    · have hsc : (r (i + 1)).sc = (r i).sc := hsc
      obtain ⟨d, hdi, hturn, hph, hdrv, hval⟩ := ih (hsc ▸ hi)
      refine ⟨d, by omega, hturn, hph, fun j hdj hji => ?_, hsc ▸ hval⟩
      rcases Nat.lt_or_eq_of_le hji with hlt | rfl
      · exact hdrv j hdj (by omega)
      · exact hi

/-- A whole iteration under A_DWELL, at an address of the grid, drives that address's cell in its last step (R212,
R275). -/
theorem IsRun.serves_of_wholeIteration (hinv : (r 0).Inv) (hd : ∀ n, Dwells (r n) (r (n + 1)))
    (hw : WholeIteration r turns b e) (hgrid : AddressInGrid (r e)) : Serves r turns e := by
  obtain ⟨hbe, -, hb, hturn, hhome, -⟩ := hw
  have hcur := hrun.addressCurrent hn hd hb hbe.le
  rw [hrun.succ_of_scan hturn] at hhome
  have hdrv : (r e).sc.phase = .sDrv := (scanStep_to_sH hhome).resolve_right fun ⟨htest, hout⟩ => by
    have htest : (r e).sc.phase = .sTest := htest
    rw [AddressInGrid, ← hcur.h (by simp [htest]), ← hcur.v (by simp [htest]) (by simp [htest])] at hgrid
    exact absurd (hgrid.symm.trans hout) nofun
  refine ⟨hturn, hdrv, hcur.h (by simp [hdrv]), hcur.v (by simp [hdrv]) (by simp [hdrv]), fun i id hid => ?_,
    hrun.exists_read hn hb hbe.le hdrv⟩
  rw [hrun.succ_of_scan hturn]
  exact line_scanStep_of_sDrv (inv_begun (inv_driven (hrun.inv hinv e) _ _)) hdrv hid

/-- A fair run takes the first step of an iteration again and again (R210, R251). -/
theorem IsRun.exists_scan_at_sH (hfair : Fair r turns) (n : Nat) :
    ∃ b, n ≤ b ∧ turns b = .scan ∧ (r b).sc.phase = .sH := by
  by_contra! hnever
  obtain ⟨b, hnb, hb⟩ := scanEngineNeverStops r turns offers hrun hfair n
  have hstuck : ∀ m, b ≤ m → (r m).sc.phase = .sH := fun m hm => by
    induction m, hm using Nat.le_induction with
    | base => exact hb
    | succ m hm ih =>
      have hturn : turns m ≠ .scan := fun hturn => hnever m (by omega) hturn ih
      rw [hrun.sc_succ hn hturn, ih]
  obtain ⟨m, hbm, hturn⟩ := hfair.1 b
  exact hnever m (by omega) hturn (hstuck m hbm)

/-- In a fair run an iteration that begins comes to its end (R210, R251). -/
theorem IsRun.exists_wholeIteration (hfair : Fair r turns) (hturn : turns b = .scan) (hb : (r b).sc.phase = .sH) :
    ∃ e, WholeIteration r turns b e := by
  have hagain : ∃ m, b < m ∧ (r m).sc.phase = .sH := scanEngineNeverStops r turns offers hrun hfair (b + 1)
  obtain ⟨hlt, hhome⟩ := Nat.find_spec hagain
  have hfirst : ∀ i, b < i → i < Nat.find hagain → (r i).sc.phase ≠ .sH := fun i hbi hi hph =>
    Nat.find_min hagain hi ⟨hbi, hph⟩
  generalize Nat.find hagain = m at hlt hhome hfirst
  obtain ⟨e, rfl⟩ : ∃ e, m = e + 1 := Nat.exists_eq_succ_of_ne_zero (by omega)
  have hbe : b < e := by
    refine Nat.lt_of_le_of_ne (Nat.lt_succ_iff.mp hlt) fun h => ?_
    subst h
    rw [hrun.succ_of_scan hturn, scanStep_of_sH (s := ((r b).driven (turns b) (offers b)).begun) hb] at hhome
    cases hhome
  have hend : turns e = .scan := by
    by_contra hother
    exact hfirst e hbe (Nat.lt_succ_self e) (hrun.sc_succ hn hother ▸ hhome)
  exact ⟨e, hbe, hturn, hb, hend, hhome, fun i hbi hie => ⟨hfirst i hbi (Nat.lt_succ_iff.mpr hie), hn i⟩⟩

end Run

/-- Settles O48, by the invariant that the sampled address is current: from S_H on it holds along the iteration. A changed
address was held for one whole iteration, which served it; after an address that is never changed again, fairness gives
one. -/
theorem dwellingAddressIsTheOneServed : Obligations.DwellingAddressIsTheOneServed := by
  refine ⟨fun r n _ _ hph hrun _ hdrv => ?_, fun r turns offers hrun hinv hn hdwell => ⟨fun m hmoves hgrid => ?_,
    fun hfair n hstay hgrid => ?_⟩⟩
  · have hcur : ∀ i, i ≤ n → (r i).AddressCurrent := fun i => by
      induction i with
      | zero => exact fun _ => addressCurrent_of_sH hph
      | succ i ih =>
        intro hi
        obtain ⟨hstep, hd, hreset⟩ := hrun i hi
        exact addressCurrent_step hreset hd hstep (ih (by omega))
    exact ⟨(hcur n le_rfl).h (by simp [hdrv]), (hcur n le_rfl).v (by simp [hdrv]) (by simp [hdrv])⟩
  · obtain ⟨b, e, hw, hem, hheld⟩ := hdwell.2 m hmoves
    have hbe := hw.1
    have hsame : ∀ i, e ≤ i → i ≤ m → SameAddress (r i) (r m) := fun i hei him =>
      hrun.sameAddress hn him fun j hij hjm => hheld j (by omega) hjm
    refine ⟨e, hem, hrun.serves_of_wholeIteration hn hinv hdwell.1 hw ?_, hsame⟩
    exact (hrun.addressInGrid_iff hn (hsame e le_rfl hem.le)).mp hgrid
  · obtain ⟨b, hnb, hturn, hb⟩ := hrun.exists_scan_at_sH hn hfair n
    obtain ⟨e, hw⟩ := hrun.exists_wholeIteration hn hfair hturn hb
    have hbe := hw.1
    refine ⟨e, by omega, hrun.serves_of_wholeIteration hn hinv hdwell.1 hw ?_⟩
    exact (hrun.addressInGrid_iff hn (hrun.sameAddress hn (by omega) fun i hni _ => hstay i hni)).mpr hgrid

end Sys2Proof.Machine
end
